-- ==== Sys2Proof/Word.lean ====
section
/-! DEFINITION. The word types of the part: bytes, rail numbers, link numbers, and the lists of all rails and links. -/

namespace Sys2Proof

/-- A byte, as it stands in a frame on an arbiter link (R178). -/
abbrev Byte := BitVec 8

/-- A rail number, 0 to 15. -/
abbrev Rail := Fin 16

/-- A link number, 0 to 3. Link n carries session n. -/
abbrev Link := Fin 4

/-- The sixteen rails in ascending rail number. -/
def allRails : List Rail := [0, 1, 2, 3, 4, 5, 6, 7, 8, 9, 10, 11, 12, 13, 14, 15]

/-- The four links in ascending link number. -/
def allLinks : List Link := [0, 1, 2, 3]

end Sys2Proof
end

