-- ==== Sys2Proof/Syntax.lean ====
section
/-! DEFINITION. The commands of the part: one constructor of `Instr` for each row of spec/opcode_table.json, with the row's operands. -/

namespace Sys2Proof

/-- The level of a digital line. EN, PG and LVL are active HIGH; ALERTn, CSn, LRSTn and RESETn are active LOW. -/
inductive Line where
  | low
  | high
  deriving DecidableEq, Repr

/-- The kind bytes of R188, in the order of the table. -/
def knownKinds : List Byte :=
  [0x01, 0x02, 0x03, 0x10, 0x11, 0x12, 0x20, 0x21, 0x22, 0x30, 0x31, 0x32, 0x33, 0x34]

/-- A kind byte that R188 does not list. -/
abbrev UnlistedKind := { b : Byte // knownKinds.contains b = false }

/-- The kind byte of a frame as it arrives: the one R188 gives the command's row, or one that R188 does not list,
which the link refuses with UNKNOWN_KIND (R182). No row of the command table stands for an unlisted kind, so a
frame that carries one is a request row's command with this operand (log 7). -/
inductive KindByte where
  | own
  | unlisted (b : UnlistedKind)
  deriving DecidableEq, Repr

/-- A request frame as its bytes arrive in the receiver (R179, R186): the kind byte, the tag, the length byte, the
argument bytes that stand between the length byte and the CRC byte, and the CRC byte. -/
structure Frame where
  kind   : KindByte
  tag    : Byte
  length : Byte
  args   : List Byte
  crc    : Byte
  deriving DecidableEq, Repr

/-- The commands. Each request's operands are the link it arrives on and its frame; `sense` is the level of the
SENSE input in mV at the command (log 8). -/
inductive Instr where
  /-- ATTACH (R132). -/
  | attach (l : Link) (f : Frame)
  /-- DETACH (R135). -/
  | detach (l : Link) (f : Frame)
  /-- RENEW (R134). -/
  | renew (l : Link) (f : Frame)
  /-- CLAIM (R62). -/
  | claim (l : Link) (f : Frame)
  /-- RELEASE with wait choice 0 (R66). -/
  | releaseWithoutWait (l : Link) (f : Frame)
  /-- RELEASE with wait choice 1 (R67). -/
  | releaseWithWait (l : Link) (f : Frame)
  /-- CLEAR_FAULT (R108). -/
  | clearFault (l : Link) (f : Frame)
  /-- FETCH_EVENT (R159). -/
  | fetchEvent (l : Link) (f : Frame)
  /-- QUERY_RAIL (R184). -/
  | queryRail (l : Link) (f : Frame)
  /-- QUERY_PART (R185). -/
  | queryPart (l : Link) (f : Frame)
  /-- WRITE_RAIL (R165). -/
  | writeRail (l : Link) (f : Frame)
  /-- WRITE_PART (R166). -/
  | writePart (l : Link) (f : Frame)
  /-- READ_RAIL (R167). -/
  | readRail (l : Link) (f : Frame)
  /-- READ_PART (R167). -/
  | readPart (l : Link) (f : Frame)
  /-- COMMIT (R172), with the SENSE level its initial evaluation reads (R126). -/
  | commit (l : Link) (f : Frame) (sense : Nat)
  /-- CSn rises before the CRC byte has arrived (R179). -/
  | frameDiscard (l : Link)
  /-- The PG filter of a rail takes a change of its PG line to the given level (R21). -/
  | pgChangeTaken (r : Rail) (level : Line)
  /-- The ramp time of a rail expires (R30). -/
  | rampTimeExpiry (r : Rail)
  /-- The slew time of a rail expires (R40). -/
  | slewTimeExpiry (r : Rail)
  /-- The drain time of a rail expires (R43). -/
  | drainTimeExpiry (r : Rail)
  /-- A drain-finished rail enters OFF once no draining child holds it (R43). -/
  | deferredOff (r : Rail)
  /-- The arbiter grants the rail's START at the head of the queue (R28). -/
  | startGrant (r : Rail)
  /-- The arbiter grants the rail's RAISE at the head of the queue (R35). -/
  | raiseGrant (r : Rail)
  /-- The recovery holdoff expires (R117). -/
  | holdoffExpiry
  /-- The lease timer of a session expires (R137). -/
  | leaseExpiry (l : Link)
  /-- SENSE falls below WARN (R115). -/
  | fallBelowWarn (sense : Nat)
  /-- SENSE falls below CRIT (R115). -/
  | fallBelowCrit (sense : Nat)
  /-- SENSE rises above CRIT plus the band (R115). -/
  | riseAboveCritBand (sense : Nat)
  /-- SENSE rises above WARN plus the band (R115). -/
  | riseAboveWarnBand (sense : Nat)
  /-- LRSTn of a link goes LOW (R139). -/
  | linkReset (l : Link)
  /-- LRSTn of a link goes HIGH (R139). -/
  | linkResetRelease (l : Link)
  /-- RESETn goes LOW (R175), with the SENSE level the fresh evaluation reads (R127). -/
  | warmReset (sense : Nat)
  /-- RESETn goes HIGH (R176). -/
  | warmResetRelease
  /-- The power-on detector holds and then releases the part (R174). -/
  | powerOnReset
  /-- The millisecond tick of the timebase (R158). -/
  | timestampTick
  /-- CSn of a link falls (R178). -/
  | csnFall (l : Link)
  /-- The last byte of a link's response has been clocked out (R178). -/
  | responseEnd (l : Link)
  /-- CSn of a link rises after the CRC byte has arrived (R178). -/
  | csnRise (l : Link)
  deriving DecidableEq, Repr

end Sys2Proof
end

