-- ==== Sys2Proof/Decode.lean ====
section
/-! DEFINITION. The command a word spells by the bits of spec/opcode_table.json. The table gives no row any bits (spec/98_reader.md: no row with fixed bits or fields), so no word spells a command. The frames of the links are read in Sys2Proof/Machine/Operands.lean. -/

namespace Sys2Proof

/-- No row of the table gives bits, so there is no word to read. -/
def decodeTableWord (_nbits _w : Nat) : Option Instr := none

end Sys2Proof
end

