-- ==== Sys2Proof/Config.lean ====
section
/-! DEFINITION. The figures the manual fixes once for the whole part. There is no free value: the manual gives every value that an event writes. -/

namespace Sys2Proof.Config

/-- The room of a session: event-queue entries plus outstanding completions (R148). -/
def sessionRoom : Nat := 24

/-- The value at which a lost-notice count stays (R150). -/
def lostMax : Nat := 255

/-- The value at which a fault count stays (R14). -/
def faultCountMax : Nat := 15

/-- Milliseconds in one unit of a lease length (R136). -/
def leaseUnit : Nat := 100

/-- Milliseconds in one unit of the holdoff code (R17). -/
def holdoffUnit : Nat := 10

/-- The threshold that code 0 stands for, in mV (R16). -/
def thresholdBase : Nat := 2400

/-- Millivolts in one step of a threshold or hysteresis code (R16). -/
def thresholdStep : Nat := 50

/-- The top of the SENSE input range, in mV (R16). -/
def senseMax : Nat := 6000

/-- The longest argument list of a request frame, in bytes (R179). -/
def maxArguments : Nat := 32

/-- How many rounds the bounded loops over the rails may take: at least one for each rail (log 22). -/
def railRounds : Nat := 16

/-- How many grants one event may make: at least two for each rail (log 22). -/
def grantRounds : Nat := 40

end Sys2Proof.Config
end

