-- ==== Sys2Proof/Machine/State.lean ====
section
/-! DEFINITION. The state of the JC416 as plain data: the configuration table, the sixteen rail runtime records, the budget arbiter, the supply monitor, the four sessions, the timebase, the four arbiter links, the input pins, and the queue of waiting commands. -/

namespace Sys2Proof.Machine

/-- The seven states of a rail (R18). -/
inductive RailState where
  | off
  | waiting
  | ramping
  | on
  | slewing
  | draining
  | fault
  deriving DecidableEq, Repr

/-- Why a rail is draining, or last drained (R18). -/
inductive DrainCause where
  | normal
  | parentFault
  | collapse
  | restart
  deriving DecidableEq, Repr

/-- The five fault kinds (R92 to R96); a rail's "none" is `Option.none`. -/
inductive FaultKind where
  | rampTimeout
  | pgLost
  | slewFail
  | drainStuck
  | backfeed
  deriving DecidableEq, Repr

/-- The four supply states (R113). -/
inductive SupplyState where
  | normal
  | low
  | collapse
  | recovering
  deriving DecidableEq, Repr

/-- The output of a comparator of the supply monitor (R114). -/
inductive Side where
  | above
  | below
  deriving DecidableEq, Repr

/-- The lifecycle of the configuration table (R163). -/
inductive Lifecycle where
  | uncommitted
  | committed
  deriving DecidableEq, Repr

/-- The states of a session (R129). -/
inductive SessionState where
  | detached
  | attached
  | expired
  deriving DecidableEq, Repr

/-- Whether the part watches a rail's PG line (R9, R10). -/
inductive PgMode where
  | monitored
  | timed
  deriving DecidableEq, Repr

/-- Whether a rail may be set aside when the supply is low (R12). -/
inductive ShedClass where
  | keep
  | shed
  deriving DecidableEq, Repr

/-- A timer of the part: stopped, or running with so many milliseconds left (R22, R117, R136). -/
inductive Timer where
  | stopped
  | running (ms : Nat)
  deriving DecidableEq, Repr

/-- A rail record of the configuration table (R1 to R14), each field in the place its layout gives it (R190). The
parent count is the length of the parent list. -/
structure RailRecord where
  defined    : Bool
  pgMode     : PgMode
  shedClass  : ShedClass
  priority   : BitVec 2
  levelCount : BitVec 4
  retryLimit : BitVec 4
  rampTime   : Byte
  slewTime   : Byte
  drainTime  : Byte
  costs      : List (BitVec 16)
  parents    : List Byte
  deriving DecidableEq, Repr

/-- The part record (R15 to R17, R190). -/
structure PartRecord where
  budgetFull     : BitVec 12
  budgetLow      : BitVec 12
  warnCode       : BitVec 6
  critCode       : BitVec 6
  hysteresisCode : BitVec 3
  holdoffCode    : Byte
  deriving DecidableEq, Repr

/-- The runtime record of one rail (R18), with the EN and LVL lines its controller drives (R19, R20). Rails 8 to 15
have no LVL lines; their `lvl` stays 0. -/
structure RailRuntime where
  state         : RailState
  level         : Nat
  target        : Nat
  claims        : Vector Nat 4
  holdSet       : Vector Bool 16
  suspended     : Bool
  timer         : Timer
  slewOrigin    : Option Nat
  drainFinished : Bool
  drainCause    : DrainCause
  faultLatch    : Bool
  faultKind     : Option FaultKind
  faultCount    : Nat
  held          : Nat
  pg            : Line
  en            : Line
  lvl           : BitVec 3
  deriving DecidableEq, Repr

/-- The two kinds of budget request (R76). -/
inductive GrantKind where
  | start
  | raise
  deriving DecidableEq, Repr

/-- An entry of the budget wait queue (R79). Its place in the queue is the order in which it joined. -/
structure QueueEntry where
  rail     : Rail
  kind     : GrantKind
  amount   : Nat
  priority : BitVec 2
  deriving DecidableEq, Repr

/-- The record of the supply monitor (R113); `active` is its activity, IDLE or ACTIVE. -/
structure SupplyMonitor where
  active  : Bool
  state   : SupplyState
  warnOut : Side
  critOut : Side
  holdoff : Timer
  deriving DecidableEq, Repr

/-- The five notice choices of a session (R129, R140). -/
structure NoticeMask where
  railFault     : Bool
  forcedOff     : Bool
  suspendResume : Bool
  supplyChange  : Bool
  faultCleared  : Bool
  deriving DecidableEq, Repr

/-- The kind of an outstanding completion (R145); a CLAIM-WAIT carries the claimed level. -/
inductive WaitKind where
  | claimWait (level : Nat)
  | offWait
  deriving DecidableEq, Repr

/-- An outstanding completion (R145); its rail is its place in the session's table. -/
structure Outstanding where
  kind : WaitKind
  tag  : Byte
  deriving DecidableEq, Repr

/-- The codes of an event record (R147): six completion codes, then six notice codes. -/
inductive EventCode where
  | granted
  | superseded
  | cancelled
  | failed
  | offReached
  | held
  | railFault
  | forcedOff
  | suspended
  | resumed
  | supplyChange
  | faultCleared
  deriving DecidableEq, Repr

/-- The detail of an event record (R147). -/
inductive Detail where
  | absent
  | fault (k : Option FaultKind)
  | supply (st : SupplyState)
  deriving DecidableEq, Repr

/-- An event record (R147). Its kind, COMPLETION or NOTICE, follows from its code. -/
structure EventRecord where
  code      : EventCode
  rail      : Option Rail
  tag       : Option Byte
  level     : Nat
  detail    : Detail
  timestamp : BitVec 16
  deriving DecidableEq, Repr

/-- The record of one session (R129). The table holds at most one outstanding completion for each rail (R145). -/
structure Session where
  state       : SessionState
  leaseLength : Byte
  leaseTimer  : Timer
  mask        : NoticeMask
  table       : Vector (Option Outstanding) 16
  queue       : List EventRecord
  lost        : Nat
  alertn      : Line
  deriving DecidableEq, Repr

/-- The frame receiver of a link (R178). RESPONSE holds the bytes of the response frame it sends. -/
inductive Receiver where
  | idle
  | request
  | response (bytes : List Byte)
  | done
  deriving DecidableEq, Repr

/-- One arbiter link: its receiver and its CSn and LRSTn input lines (R139, R178). -/
structure LinkPort where
  receiver : Receiver
  csn      : Line
  lrstn    : Line
  deriving DecidableEq, Repr

/-- The whole part. `pending` is the model's own queue of waiting commands, first in, first out. -/
structure State where
  pending     : List Instr
  records     : Vector RailRecord 16
  part        : PartRecord
  lifecycle   : Lifecycle
  rails       : Vector RailRuntime 16
  allocated   : Nat
  limit       : Nat
  budgetQueue : List QueueEntry
  supply      : SupplyMonitor
  sessions    : Vector Session 4
  links       : Vector LinkPort 4
  timestamp   : BitVec 16
  resetn      : Line
  sense       : Nat
  deriving DecidableEq, Repr

/-- No command stops the part, so there is no fault (INVENTORY.md, Faults): nothing raises one. Safe. -/
inductive Fault where
  deriving DecidableEq, Repr

/-- The reasons a command has no meaning. -/
inductive Refusal where
  /-- Raised by an arm of exec whose command has no meaning yet, with its mnemonic. Safe: the machine stops. -/
  | notModelled (mnemonic : String)
  deriving DecidableEq, Repr

/-- A rail record at power-on reset (R2). -/
def RailRecord.powerOn : RailRecord where
  defined := false
  pgMode := .monitored
  shedClass := .keep
  priority := 0
  levelCount := 0
  retryLimit := 0
  rampTime := 0
  slewTime := 0
  drainTime := 0
  costs := []
  parents := []

/-- The part record at power-on reset (R2). -/
def PartRecord.powerOn : PartRecord where
  budgetFull := 0
  budgetLow := 0
  warnCode := 0
  critCode := 0
  hysteresisCode := 0
  holdoffCode := 0

/-- A rail runtime record at power-on reset (R49). -/
def RailRuntime.powerOn : RailRuntime where
  state := .off
  level := 0
  target := 0
  claims := .replicate 4 0
  holdSet := .replicate 16 false
  suspended := false
  timer := .stopped
  slewOrigin := none
  drainFinished := false
  drainCause := .normal
  faultLatch := false
  faultKind := none
  faultCount := 0
  held := 0
  pg := .low
  en := .low
  lvl := 0

/-- The supply monitor at power-on reset (R126). -/
def SupplyMonitor.powerOn : SupplyMonitor where
  active := false
  state := .normal
  warnOut := .above
  critOut := .above
  holdoff := .stopped

/-- The mask that names no notice (R140). -/
def NoticeMask.empty : NoticeMask where
  railFault := false
  forcedOff := false
  suspendResume := false
  supplyChange := false
  faultCleared := false

/-- A session at power-on reset (R143, R162). -/
def Session.powerOn : Session where
  state := .detached
  leaseLength := 0
  leaseTimer := .stopped
  mask := .empty
  table := .replicate 16 none
  queue := []
  lost := 0
  alertn := .high

/-- A link with its receiver in IDLE (R178) and its input lines at their pulled-up level (log 1). -/
def LinkPort.powerOn : LinkPort where
  receiver := .idle
  csn := .high
  lrstn := .high

/-- The part right after power-on reset (R174), with no command waiting. The input lines and SENSE are as log 1 says. -/
def State.reset : State where
  pending := []
  records := .replicate 16 .powerOn
  part := .powerOn
  lifecycle := .uncommitted
  rails := .replicate 16 .powerOn
  allocated := 0
  limit := 0
  budgetQueue := []
  supply := .powerOn
  sessions := .replicate 4 .powerOn
  links := .replicate 4 .powerOn
  timestamp := 0
  resetn := .high
  sense := 0

end Sys2Proof.Machine
end

