-- ==== Sys2Proof/Machine/Access.lean ====
section
/-! DEFINITION. The one way to read and write each bank of the state: rail records, rail runtime records, sessions and links. -/

namespace Sys2Proof.Machine

/-- The rail record of rail `r` in the configuration table (R1). -/
def State.record (s : State) (r : Rail) : RailRecord := s.records.get r

/-- The table with the rail record of rail `r` replaced (R165). -/
def State.setRecord (s : State) (r : Rail) (x : RailRecord) : State :=
  { s with records := s.records.set r.val x r.isLt }

/-- The runtime record of rail `r` (R18). -/
def State.rail (s : State) (r : Rail) : RailRuntime := s.rails.get r

/-- The state with the runtime record of rail `r` replaced. -/
def State.setRail (s : State) (r : Rail) (x : RailRuntime) : State :=
  { s with rails := s.rails.set r.val x r.isLt }

/-- The state with the runtime record of rail `r` changed by `f`. -/
def State.modRail (s : State) (r : Rail) (f : RailRuntime → RailRuntime) : State :=
  s.setRail r (f (s.rail r))

/-- The state with `f r` applied to the runtime record of every rail `r`. -/
def State.modRails (s : State) (f : Rail → RailRuntime → RailRuntime) : State :=
  allRails.foldl (fun s r => s.modRail r (f r)) s

/-- The record of session `l` (R129). -/
def State.session (s : State) (l : Link) : Session := s.sessions.get l

/-- The state with the record of session `l` changed by `f`. -/
def State.modSession (s : State) (l : Link) (f : Session → Session) : State :=
  { s with sessions := s.sessions.set l.val (f (s.session l)) l.isLt }

/-- Link `l` (R178). -/
def State.link (s : State) (l : Link) : LinkPort := s.links.get l

/-- The state with link `l` changed by `f`. -/
def State.modLink (s : State) (l : Link) (f : LinkPort → LinkPort) : State :=
  { s with links := s.links.set l.val (f (s.link l)) l.isLt }

/-- The claim entry of session `l` on rail `r` (R51). -/
def State.claim (s : State) (l : Link) (r : Rail) : Nat := (s.rail r).claims.get l

/-- The state with the claim entry of session `l` on rail `r` set to `v` (R51). -/
def State.setClaim (s : State) (l : Link) (r : Rail) (v : Nat) : State :=
  s.modRail r fun x => { x with claims := x.claims.set l.val v l.isLt }

/-- The outstanding completion of session `l` on rail `r`, if there is one (R145). -/
def State.outstanding (s : State) (l : Link) (r : Rail) : Option Outstanding := (s.session l).table.get r

/-- The state with the completion table entry of session `l` for rail `r` replaced (R145). -/
def State.setOutstanding (s : State) (l : Link) (r : Rail) (o : Option Outstanding) : State :=
  s.modSession l fun x => { x with table := x.table.set r.val o r.isLt }

end Sys2Proof.Machine
end

