-- ==== Sys2Proof/Machine/Flags.lean ====
section
/-! DEFINITION. What the spec derives from the state: the graph, the target of a rail, readiness, requests for budget, the lines that follow from a state, thresholds, and room in a session. -/

namespace Sys2Proof.Machine

/-! ### States of a rail -/

/-- The states in which EN is HIGH (R19). -/
def RailState.running : RailState → Bool
  | .ramping => true
  | .on => true
  | .slewing => true
  | _ => false

/-- The states in which a parent counts as up (R24). -/
def RailState.up : RailState → Bool
  | .on => true
  | .slewing => true
  | _ => false

/-- The states in which a child holds its parents (R56). -/
def RailState.holding : RailState → Bool
  | .waiting => true
  | .ramping => true
  | .on => true
  | .slewing => true
  | .draining => true
  | _ => false

/-- EN is HIGH exactly in RAMPING, ON and SLEWING (R19). -/
def enLine (st : RailState) : Line := if st.running then .high else .low

/-- The level code on the LVL lines: the level minus 1, code 0 where the level is 0, and 0 on rails 8 to 15, which have
no LVL lines (R20). -/
def lvlCode (r : Rail) (level : Nat) : BitVec 3 :=
  if r.val < 8 then BitVec.ofNat 3 (level - 1) else 0

/-! ### The dependency graph (R7) -/

/-- The rails on the parent list of a record. A parent byte above 15 names no rail (log 24). -/
def RailRecord.parentRails (x : RailRecord) : List Rail :=
  x.parents.filterMap fun b => if h : b.toNat < 16 then some ⟨b.toNat, h⟩ else none

/-- The parents of rail `r`. An absent rail has none, whatever its record holds (R3). -/
def State.parentsOf (s : State) (r : Rail) : List Rail :=
  if (s.record r).defined then (s.record r).parentRails else []

/-- Whether rail `p` is a parent of rail `c`. -/
def State.isParent (s : State) (p c : Rail) : Bool := (s.parentsOf c).contains p

/-- The children of rail `p` in ascending rail number, derived from the parent lists of the defined rails (R3, R7). -/
def State.childrenOf (s : State) (p : Rail) : List Rail := allRails.filter fun c => s.isParent p c

/-- The rails that list some member of `ps` among their parents, in ascending rail number. -/
def State.childrenOfAny (s : State) (ps : List Rail) : List Rail :=
  allRails.filter fun c => ps.any fun p => s.isParent p c

/-- `done` followed, round by round, by the rails all of whose children are already listed. -/
def State.childFirstFrom (s : State) : Nat → List Rail → List Rail
  | 0, listed => listed
  | n + 1, listed =>
    match allRails.filter (fun r => !listed.contains r && (s.childrenOf r).all listed.contains) with
    | [] => listed
    | next => s.childFirstFrom n (listed ++ next)

/-- Every rail once, each after all its children where the graph is acyclic, as it is in a committed table (R1). -/
def State.childFirst (s : State) : List Rail :=
  let listed := s.childFirstFrom Config.railRounds []
  listed ++ allRails.filter fun r => !listed.contains r

/-! ### Demand and target -/

/-- The highest entry of a claim vector (R52). -/
def RailRuntime.claimDemand (x : RailRuntime) : Nat :=
  allLinks.foldl (fun m l => max m (x.claims.get l)) 0

/-- The claim demand, set aside while the rail is suspended (R53). -/
def RailRuntime.effectiveDemand (x : RailRuntime) : Nat :=
  if x.suspended then 0 else x.claimDemand

/-- Whether some child holds the rail (R56). -/
def RailRuntime.isHeld (x : RailRuntime) : Bool := allRails.any fun c => x.holdSet.get c

/-- The target of R53: the effective claim demand, raised to 1 where it is 0 and a child holds the rail. -/
def RailRuntime.demandedTarget (x : RailRuntime) : Nat :=
  if x.effectiveDemand = 0 then (if x.isHeld then 1 else 0) else x.effectiveDemand

/-- The target of rail `r` as its inputs give it; an absent rail's is 0 (R53). -/
def State.targetFor (s : State) (r : Rail) : Nat :=
  if (s.record r).defined then (s.rail r).demandedTarget else 0

/-! ### Costs, readiness and requests -/

/-- The cost of a level, level 0 costing nothing (R5). -/
def RailRecord.costOf (x : RailRecord) (level : Nat) : Nat :=
  match level with
  | 0 => 0
  | n + 1 => (x.costs.getD n 0).toNat

/-- A defined rail whose PG line the part watches (R9, R21). -/
def State.monitored (s : State) (r : Rail) : Bool :=
  (s.record r).defined && (s.record r).pgMode == .monitored

/-- A rail that the part acts for: the table is committed and defines it (R3, R163). -/
def State.activeRail (s : State) (r : Rail) : Bool :=
  s.lifecycle == .committed && (s.record r).defined

/-- Readiness (R24). -/
def State.ready (s : State) (r : Rail) : Bool :=
  (s.rail r).state == .waiting && (s.parentsOf r).all (fun p => (s.rail p).state.up)
    && s.supply.state != .collapse

/-- Why a rail in WAITING waits (R24). -/
inductive WaitReason where
  | parents
  | budget
  | supply
  | parentFault
  deriving DecidableEq, Repr

/-- The wait reason of a rail in WAITING, in the precedence of R24; absent in any other state. -/
def State.waitReason (s : State) (r : Rail) : Option WaitReason :=
  if (s.rail r).state = .waiting then
    if (s.parentsOf r).any (fun p => (s.rail p).state == .fault) then some .parentFault
    else if s.supply.state = .collapse then some .supply
    else if (s.parentsOf r).any (fun p => !(s.rail p).state.up) then some .parents
    else some .budget
  else none

/-- The request a rail has to make of the arbiter, with its amount: a START while it is ready, a RAISE while it is in ON
below its target (R76). -/
def State.requestOf (s : State) (r : Rail) : Option (GrantKind × Nat) :=
  let x := s.rail r
  let cost := (s.record r).costOf
  if s.ready r then some (.start, cost x.target)
  else if x.state = .on ∧ x.level < x.target then some (.raise, cost x.target - cost x.level)
  else none

/-- Whether the budget wait queue holds an entry of rail `r` (R79). -/
def State.queued (s : State) (r : Rail) : Bool := s.budgetQueue.any fun q => q.rail == r

/-- Whether a member of the rail's hold set is in DRAINING (R43). -/
def State.heldByDraining (s : State) (r : Rail) : Bool :=
  allRails.any fun c => (s.rail r).holdSet.get c && (s.rail c).state == .draining

/-! ### Supply (R16, R17, R74) -/

/-- WARN in mV (R16). -/
def PartRecord.warn (p : PartRecord) : Nat := Config.thresholdBase + p.warnCode.toNat * Config.thresholdStep

/-- CRIT in mV (R16). -/
def PartRecord.crit (p : PartRecord) : Nat := Config.thresholdBase + p.critCode.toNat * Config.thresholdStep

/-- The hysteresis band in mV (R16). -/
def PartRecord.band (p : PartRecord) : Nat := p.hysteresisCode.toNat * Config.thresholdStep

/-- The recovery holdoff in ms (R17). -/
def PartRecord.holdoff (p : PartRecord) : Nat := p.holdoffCode.toNat * Config.holdoffUnit

/-- The limit that goes with a supply state of a committed part (R74). -/
def PartRecord.limitIn (p : PartRecord) : SupplyState → Nat
  | .normal => p.budgetFull.toNat
  | .low => p.budgetLow.toNat
  | .recovering => p.budgetLow.toNat
  | .collapse => 0

/-- The supply state an evaluation of SENSE finds, never RECOVERING (R126). -/
def PartRecord.evaluated (p : PartRecord) (sense : Nat) : SupplyState :=
  if sense < p.crit then .collapse else if sense < p.warn then .low else .normal

/-- The supply state as QUERY_PART, ATTACH and COMMIT report it: NORMAL while the monitor is IDLE (R113). -/
def State.reportedSupply (s : State) : SupplyState :=
  if s.supply.active then s.supply.state else .normal

/-- What an entry to supply state `new` from `old` does to the suspended flags of the SHED rails: set, clear, or leave
(R119). -/
def suspensionAt (old new : SupplyState) : Option Bool :=
  match old, new with
  | .normal, .low => some true
  | .collapse, .low => some true
  | .collapse, .recovering => some true
  | _, .normal => some false
  | _, _ => none

/-! ### Sessions -/

/-- The number of outstanding completions of a session (R145). -/
def Session.outstandingCount (x : Session) : Nat := allRails.countP fun r => (x.table.get r).isSome

/-- The room a session uses: its queue entries and its outstanding completions (R149). -/
def Session.roomUsed (x : Session) : Nat := x.queue.length + x.outstandingCount

/-- A session with a non-zero claim on the rail (R52). -/
def State.claimant (s : State) (l : Link) (r : Rail) : Bool := s.claim l r != 0

/-- A timer that has run its full time and so expires (R22, R117, R136; log 3). -/
def Timer.expired (t : Timer) : Bool := t == .running 0

/-- A timer one millisecond later (log 3). -/
def Timer.tick : Timer → Timer
  | .stopped => .stopped
  | .running ms => .running (ms - 1)

/-- The rail a rail byte names, among the defined rails: a number above 15 names none (R61, R65, R107). -/
def State.namedRail (s : State) (b : Byte) : Option Rail :=
  if h : b.toNat < 16 then (if (s.record ⟨b.toNat, h⟩).defined then some ⟨b.toNat, h⟩ else none) else none

/-- What a link drives on its SDO line (R178). -/
inductive Sdo where
  | highImpedance
  | bytes (bs : List Byte)
  deriving DecidableEq, Repr

/-- SDO by the receiver's state: 0x00 in REQUEST; the turnaround byte 0x00 and then the response frame in RESPONSE; 0xFF
in DONE (R178, R181). -/
def Receiver.sdo : Receiver → Sdo
  | .idle => .highImpedance
  | .request => .bytes [0x00]
  | .response bytes => .bytes (0x00 :: bytes)
  | .done => .bytes [0xFF]

end Sys2Proof.Machine
end

