-- ==== Sys2Proof/WellFormed.lean ====
section
/-! DEFINITION. Which commands a sender can send: the operands that the lines can carry. Meanings are total on the others too. -/

namespace Sys2Proof

/-- The receiver takes as many argument bytes as the length byte says, and none where it is above 32 (R179). -/
def Frame.wf (f : Frame) : Bool :=
  f.args.length == (if f.length.toNat ≤ Config.maxArguments then f.length.toNat else 0)

/-- The wait choice byte a RELEASE frame carries, its second argument (R188). -/
def Frame.waitByte (f : Frame) : Byte := f.args.getD 1 0

/-- SENSE lies within its input range of 0 V to 6 V (R16). -/
def senseWf (sense : Nat) : Bool := decide (sense ≤ Config.senseMax)

/-- A command as its sender can send it. A RELEASE frame with wait choice 1 is RELEASE_WITH_WAIT and one with wait
choice 0 is RELEASE_WITHOUT_WAIT; one with another wait choice is refused, under either row (R65, log 7). -/
def Instr.wf : Instr → Bool
  | .attach _ f => f.wf
  | .detach _ f => f.wf
  | .renew _ f => f.wf
  | .claim _ f => f.wf
  | .releaseWithoutWait _ f => f.wf && f.waitByte != 0x01
  | .releaseWithWait _ f => f.wf && f.waitByte != 0x00
  | .clearFault _ f => f.wf
  | .fetchEvent _ f => f.wf
  | .queryRail _ f => f.wf
  | .queryPart _ f => f.wf
  | .writeRail _ f => f.wf
  | .writePart _ f => f.wf
  | .readRail _ f => f.wf
  | .readPart _ f => f.wf
  | .commit _ f sense => f.wf && senseWf sense
  | .frameDiscard _ => true
  | .pgChangeTaken _ _ => true
  | .rampTimeExpiry _ => true
  | .slewTimeExpiry _ => true
  | .drainTimeExpiry _ => true
  | .deferredOff _ => true
  | .startGrant _ => true
  | .raiseGrant _ => true
  | .holdoffExpiry => true
  | .leaseExpiry _ => true
  | .fallBelowWarn sense => senseWf sense
  | .fallBelowCrit sense => senseWf sense
  | .riseAboveCritBand sense => senseWf sense
  | .riseAboveWarnBand sense => senseWf sense
  | .linkReset _ => true
  | .linkResetRelease _ => true
  | .warmReset sense => senseWf sense
  | .warmResetRelease => true
  | .powerOnReset => true
  | .timestampTick => true
  | .csnFall _ => true
  | .responseEnd _ => true
  | .csnRise _ => true

end Sys2Proof
end

