-- ==== Sys2Proof/Machine/Operands.lean ====
section
/-! DEFINITION. The byte layouts of the links: the CRC, kinds and lengths, status bytes, codes of data bytes, the rail record and the part record, and the responses that carry data (R180, R186 to R191). -/

namespace Sys2Proof.Machine

/-! ### CRC-8 (R180) -/

/-- The register after one bit has been taken in. -/
def crcShift (c : Byte) : Byte := if c.msb then (c <<< 1) ^^^ 0x1D else c <<< 1

/-- The register after one byte has been taken in, most significant bit first. -/
def crcByte (c b : Byte) : Byte :=
  crcShift (crcShift (crcShift (crcShift (crcShift (crcShift (crcShift (crcShift (c ^^^ b))))))))

/-- The CRC-8 of a list of bytes: polynomial x^8 + x^4 + x^3 + x^2 + 1, initial value 0xFF, no reflection, no final
inversion. -/
def crc8 (bs : List Byte) : Byte := bs.foldl crcByte 0xFF

/-! ### Kinds (R188) -/

/-- The fourteen request kinds. -/
inductive Kind where
  | attach
  | detach
  | renew
  | claim
  | release
  | clearFault
  | fetchEvent
  | queryRail
  | queryPart
  | writeRail
  | writePart
  | readRail
  | readPart
  | commit
  deriving DecidableEq, Repr

/-- The kind byte of a kind. -/
def Kind.byte : Kind → Byte
  | .attach => 0x01
  | .detach => 0x02
  | .renew => 0x03
  | .claim => 0x10
  | .release => 0x11
  | .clearFault => 0x12
  | .fetchEvent => 0x20
  | .queryRail => 0x21
  | .queryPart => 0x22
  | .writeRail => 0x30
  | .writePart => 0x31
  | .readRail => 0x32
  | .readPart => 0x33
  | .commit => 0x34

/-- Whether a kind allows an argument length. -/
def Kind.allowsLength (k : Kind) (n : Nat) : Bool :=
  match k with
  | .attach => n == 2
  | .detach => n == 0
  | .renew => n == 0
  | .claim => n == 2
  | .release => n == 2
  | .clearFault => n == 1
  | .fetchEvent => n == 0
  | .queryRail => n == 1
  | .queryPart => n == 0
  | .writeRail => decide (6 ≤ n ∧ n ≤ 32)
  | .writePart => n == 6
  | .readRail => n == 1
  | .readPart => n == 0
  | .commit => n == 0

/-- The kind byte as it arrived. -/
def kindByteOf (k : Kind) : KindByte → Byte
  | .own => k.byte
  | .unlisted b => b.val

/-- The CRC the frame's bytes call for (R180). -/
def frameCrc (k : Kind) (f : Frame) : Byte := crc8 (kindByteOf k f.kind :: f.tag :: f.length :: f.args)

/-- Argument byte `i` of a frame, 0 where it carries none. -/
def argByte (f : Frame) (i : Nat) : Byte := f.args.getD i 0

/-- A frame of kind `k` as a master builds it: the length byte and the CRC byte follow from the tag and the arguments. -/
def buildFrame (k : Kind) (tag : Byte) (args : List Byte) : Frame where
  kind := .own
  tag := tag
  length := BitVec.ofNat 8 args.length
  args := args
  crc := crc8 (k.byte :: tag :: BitVec.ofNat 8 args.length :: args)

/-! ### Status bytes (R187) -/

/-- The statuses of a response. -/
inductive Status where
  | ok
  | accepted
  | empty
  | badFrame
  | unknownKind
  | notAttached
  | alreadyAttached
  | leaseExpired
  | notCommitted
  | locked
  | noRail
  | badLevel
  | badArgument
  | queueFull
  | notHolder
  | notFaulted
  | exhausted
  | commitFailed
  deriving DecidableEq, Repr

/-- The byte of a status. -/
def Status.byte : Status → Byte
  | .ok => 0x00
  | .accepted => 0x01
  | .empty => 0x02
  | .badFrame => 0x10
  | .unknownKind => 0x11
  | .notAttached => 0x12
  | .alreadyAttached => 0x13
  | .leaseExpired => 0x14
  | .notCommitted => 0x15
  | .locked => 0x16
  | .noRail => 0x20
  | .badLevel => 0x21
  | .badArgument => 0x22
  | .queueFull => 0x23
  | .notHolder => 0x24
  | .notFaulted => 0x25
  | .exhausted => 0x26
  | .commitFailed => 0x27

/-- The response frame (R186). -/
def responseFrame (st : Status) (tag : Byte) (data : List Byte) : List Byte :=
  let bytes := st.byte :: tag :: BitVec.ofNat 8 data.length :: data
  bytes ++ [crc8 bytes]

/-! ### Codes of data bytes (R189) -/

/-- The byte of a field that is absent. -/
def absentByte : Byte := 0xFF

/-- The code of a rail state. -/
def RailState.code : RailState → Byte
  | .off => 0x00
  | .waiting => 0x01
  | .ramping => 0x02
  | .on => 0x03
  | .slewing => 0x04
  | .draining => 0x05
  | .fault => 0x06

/-- The code of a supply state. -/
def SupplyState.code : SupplyState → Byte
  | .normal => 0x00
  | .low => 0x01
  | .collapse => 0x02
  | .recovering => 0x03

/-- The code of a lifecycle state. -/
def Lifecycle.code : Lifecycle → Byte
  | .uncommitted => 0x00
  | .committed => 0x01

/-- The code of a session state. -/
def SessionState.code : SessionState → Byte
  | .detached => 0x00
  | .attached => 0x01
  | .expired => 0x02

/-- The code of a fault kind, or of none. -/
def faultCode : Option FaultKind → Byte
  | none => 0x00
  | some .rampTimeout => 0x01
  | some .pgLost => 0x02
  | some .slewFail => 0x03
  | some .drainStuck => 0x04
  | some .backfeed => 0x05

/-- The code of a drain cause. -/
def DrainCause.code : DrainCause → Byte
  | .normal => 0x00
  | .parentFault => 0x01
  | .collapse => 0x02
  | .restart => 0x03

/-- The code of a wait reason, absent outside WAITING. -/
def waitCode : Option WaitReason → Byte
  | none => absentByte
  | some .parents => 0x01
  | some .budget => 0x02
  | some .supply => 0x03
  | some .parentFault => 0x04

/-- Whether a code is that of a completion; the others are those of notices. -/
def EventCode.isCompletion : EventCode → Bool
  | .granted => true
  | .superseded => true
  | .cancelled => true
  | .failed => true
  | .offReached => true
  | .held => true
  | _ => false

/-- The byte of an event code. -/
def EventCode.code : EventCode → Byte
  | .granted => 0x01
  | .superseded => 0x02
  | .cancelled => 0x03
  | .failed => 0x04
  | .offReached => 0x05
  | .held => 0x06
  | .railFault => 0x11
  | .forcedOff => 0x12
  | .suspended => 0x13
  | .resumed => 0x14
  | .supplyChange => 0x15
  | .faultCleared => 0x16

/-- The bit of a budget request's kind. -/
def GrantKind.bit : GrantKind → BitVec 1
  | .start => 0
  | .raise => 1

/-! ### The rail record and the part record (R190) -/

/-- Two bytes as one 16-bit value, the most significant byte first. -/
def readPairs : Nat → List Byte → List (BitVec 16)
  | n + 1, hi :: lo :: rest => (hi ++ lo) :: readPairs n rest
  | _, _ => []

/-- A 16-bit value as two bytes, the most significant first. -/
def twoBytes (w : BitVec 16) : List Byte := [w.extractLsb' 8 8, w.extractLsb' 0 8]

/-- The level count a rail record's bytes name. -/
def recordLevels (bs : List Byte) : Nat := ((bs.getD 2 0).extractLsb' 4 4).toNat

/-- The parent count a rail record's bytes name. -/
def recordParents (bs : List Byte) : Nat := ((bs.getD 1 0).extractLsb' 0 3).toNat

/-- The entries carried are as many as the record names (R165, R190). -/
def recordLengthOk (bs : List Byte) : Bool := bs.length == 6 + 2 * recordLevels bs + recordParents bs

/-- The rail record that bytes spell; byte 0 is its rail number. -/
def parseRailRecord (bs : List Byte) : RailRecord where
  defined := (bs.getD 1 0).getLsbD 7
  pgMode := if (bs.getD 1 0).getLsbD 6 then .timed else .monitored
  shedClass := if (bs.getD 1 0).getLsbD 5 then .shed else .keep
  priority := (bs.getD 1 0).extractLsb' 3 2
  levelCount := (bs.getD 2 0).extractLsb' 4 4
  retryLimit := (bs.getD 2 0).extractLsb' 0 4
  rampTime := bs.getD 3 0
  slewTime := bs.getD 4 0
  drainTime := bs.getD 5 0
  costs := readPairs (recordLevels bs) (bs.drop 6)
  parents := bs.drop (6 + 2 * recordLevels bs)

/-- The bytes of a rail record. -/
def railRecordBytes (r : Rail) (x : RailRecord) : List Byte :=
  [BitVec.ofNat 8 r.val,
    BitVec.ofBool x.defined ++ BitVec.ofBool (x.pgMode == .timed) ++ BitVec.ofBool (x.shedClass == .shed)
      ++ x.priority ++ BitVec.ofNat 3 x.parents.length,
    x.levelCount ++ x.retryLimit, x.rampTime, x.slewTime, x.drainTime]
    ++ x.costs.flatMap twoBytes ++ x.parents

/-- The part record that six bytes spell; bit 0 of byte 4 is not a field. -/
def parsePartRecord (bs : List Byte) : PartRecord where
  budgetFull := bs.getD 0 0 ++ (bs.getD 1 0).extractLsb' 4 4
  budgetLow := (bs.getD 1 0).extractLsb' 0 4 ++ bs.getD 2 0
  warnCode := (bs.getD 3 0).extractLsb' 2 6
  critCode := (bs.getD 3 0).extractLsb' 0 2 ++ (bs.getD 4 0).extractLsb' 4 4
  hysteresisCode := (bs.getD 4 0).extractLsb' 1 3
  holdoffCode := bs.getD 5 0

/-- The bytes of the part record. -/
def partRecordBytes (p : PartRecord) : List Byte :=
  [p.budgetFull.extractLsb' 4 8, p.budgetFull.extractLsb' 0 4 ++ p.budgetLow.extractLsb' 8 4,
    p.budgetLow.extractLsb' 0 8, p.warnCode ++ p.critCode.extractLsb' 4 2,
    p.critCode.extractLsb' 0 4 ++ p.hysteresisCode ++ 0#1, p.holdoffCode]

/-! ### Response data (R184, R185, R191) -/

/-- A value as one byte. -/
def oneByte (n : Nat) : Byte := BitVec.ofNat 8 n

/-- A value below 65536 as two bytes, the most significant first. -/
def wordBytes (n : Nat) : List Byte := twoBytes (BitVec.ofNat 16 n)

/-- The detail byte of an event record. -/
def Detail.code : Detail → Byte
  | .absent => absentByte
  | .fault k => faultCode k
  | .supply st => st.code

/-- The eight bytes of an event record. -/
def eventRecordBytes (e : EventRecord) : List Byte :=
  [if e.code.isCompletion then 0x00 else 0x01, e.code.code,
    (e.rail.map fun r => oneByte r.val).getD absentByte, e.tag.getD absentByte,
    oneByte e.level, e.detail.code] ++ twoBytes e.timestamp

/-- A hold set as the 16-bit field whose bit k is set where rail k is a member. -/
def holdSetField (h : Vector Bool 16) : BitVec 16 :=
  allRails.foldl (fun w r => if h.get r then w ||| (1#16 <<< r.val) else w) 0

/-- The fourteen data bytes of a QUERY_RAIL response to link `l` (R184, R191). -/
def queryRailData (s : State) (l : Link) (r : Rail) : List Byte :=
  let x := s.rail r
  [x.state.code, oneByte x.level, oneByte x.target, oneByte x.claimDemand, oneByte (s.claim l r)]
    ++ twoBytes (holdSetField x.holdSet)
    ++ [BitVec.ofNat 6 0 ++ BitVec.ofBool (s.outstanding l r).isSome ++ BitVec.ofBool x.suspended,
      waitCode (s.waitReason r), faultCode x.faultKind, oneByte x.faultCount, x.drainCause.code]
    ++ wordBytes x.held

/-- The two bytes of an entry of the budget wait queue (R191). -/
def queueEntryBytes (q : QueueEntry) : List Byte :=
  twoBytes (BitVec.ofNat 4 q.rail.val ++ q.kind.bit ++ 0#1 ++ BitVec.ofNat 10 q.amount)

/-- The data bytes of a QUERY_PART response (R185, R191). -/
def queryPartData (s : State) : List Byte :=
  [s.lifecycle.code, s.reportedSupply.code] ++ wordBytes s.limit ++ wordBytes s.allocated
    ++ allLinks.map (fun l => (s.session l).state.code) ++ twoBytes s.timestamp
    ++ [oneByte s.budgetQueue.length] ++ s.budgetQueue.flatMap queueEntryBytes

/-! ### The notice mask (R188) -/

/-- The mask a mask byte names; bits 7 to 5 name nothing. -/
def parseMask (b : Byte) : NoticeMask where
  railFault := b.getLsbD 0
  forcedOff := b.getLsbD 1
  suspendResume := b.getLsbD 2
  supplyChange := b.getLsbD 3
  faultCleared := b.getLsbD 4

end Sys2Proof.Machine
end

