-- ==== Sys2Proof/Machine/Ops.lean ====
section
/-! DEFINITION. The named operations over the state: a rail's moves between its states, the arbiter's amounts and queue, a session's records, and the common path of a request and its response. -/

namespace Sys2Proof.Machine

/-! ### A rail's record, its lines and its holds -/

/-- A runtime record with EN and LVL driven as its state and level give (R19, R20). -/
def driveLines (r : Rail) (x : RailRuntime) : RailRuntime :=
  { x with en := enLine x.state, lvl := lvlCode r x.level }

/-- Rail `r` put into the hold set of each of its parents where its state holds them, and taken out of it otherwise
(R56, R57, R58). -/
def State.syncHolds (s : State) (r : Rail) : State :=
  (s.parentsOf r).foldl
    (fun t p => t.modRail p fun y => { y with holdSet := y.holdSet.set r.val (s.rail r).state.holding r.isLt }) s

/-- Rail `r` moved by `f`: its record changes, its lines follow (R19, R20), and so do the hold sets of its parents (R56). -/
def State.moveRail (s : State) (r : Rail) (f : RailRuntime → RailRuntime) : State :=
  (s.modRail r fun x => driveLines r (f x)).syncHolds r

/-! ### The budget arbiter -/

/-- Rail `r` takes `amount` more budget; allocated rises by it (R72, R73). -/
def State.takeBudget (s : State) (r : Rail) (amount : Nat) : State :=
  { s.modRail r (fun x => { x with held := x.held + amount }) with allocated := s.allocated + amount }

/-- Rail `r` gives back all it holds above `keep`; allocated falls by that (R72, R73, R86). -/
def State.giveBack (s : State) (r : Rail) (keep : Nat) : State :=
  { s.modRail r (fun x => { x with held := min x.held keep }) with
    allocated := s.allocated - ((s.rail r).held - min (s.rail r).held keep) }

/-- The entry of rail `r`, if any, withdrawn; the entries behind it close up (R82). -/
def State.withdraw (s : State) (r : Rail) : State :=
  { s with budgetQueue := s.budgetQueue.filter fun q => q.rail != r }

/-- An entry placed behind every entry of its own priority or a higher one, ahead of every lower one (R80). -/
def placeEntry (e : QueueEntry) : List QueueEntry → List QueueEntry
  | [] => [e]
  | q :: rest => if e.priority ≤ q.priority then q :: placeEntry e rest else e :: q :: rest

/-- The queue with the entries that no longer qualify withdrawn and the amounts of the others brought up to date, each in
its place (R79, R81, R82). -/
def State.reconcile (s : State) : State :=
  { s with budgetQueue := s.budgetQueue.filterMap fun q =>
      match s.requestOf q.rail with
      | some (k, amount) => if k = q.kind then some { q with amount := amount } else none
      | none => none }

/-- The request of rail `r` that is not yet queued (R76). -/
def State.newRequest (s : State) (r : Rail) : Option (GrantKind × Nat) :=
  if s.queued r then none else s.requestOf r

/-- The lowest-numbered rail with a new request for amount 0, which is granted at once (R77, R78). -/
def State.zeroRequest (s : State) : Option (Rail × GrantKind) :=
  allRails.findSome? fun r =>
    match s.newRequest r with
    | some (k, 0) => some (r, k)
    | _ => none

/-- The new request of rail `r`, if any, placed in the queue (R80). -/
def State.placeRequest (s : State) (r : Rail) : State :=
  match s.newRequest r with
  | some (k, amount) =>
    { s with budgetQueue := placeEntry ⟨r, k, amount, (s.record r).priority⟩ s.budgetQueue }
  | none => s

/-- The new requests of all rails placed in the queue, in ascending rail number (R78). -/
def State.placeRequests (s : State) : State := allRails.foldl State.placeRequest s

/-- Whether an amount fits the limit now: allocated plus the amount is within it (R83), or the amount is 0, which fits
whatever allocated and the limit are (R6, R75, R81; log 27). -/
def State.fits (s : State) (amount : Nat) : Bool := decide (amount = 0 ∨ s.allocated + amount ≤ s.limit)

/-! ### A rail's moves between its states -/

/-- OFF to WAITING (R26), or on to WAITING at an accepted CLEAR_FAULT (R48). -/
def State.enterWaiting (s : State) (r : Rail) : State :=
  s.moveRail r fun x => { x with state := .waiting, level := 0 }

/-- WAITING to OFF where the target has fallen to 0 (R27). -/
def State.leaveWaiting (s : State) (r : Rail) : State :=
  (s.withdraw r).moveRail r fun x => { x with state := .off, level := 0 }

/-- A START granted: RAMPING at the target, the ramp time started (R28). The budget has been taken. -/
def State.enterRamping (s : State) (r : Rail) : State :=
  s.moveRail r fun x =>
    { x with state := .ramping, level := x.target, timer := .running (s.record r).rampTime.toNat }

/-- A RAISE granted, or a slew down begun: SLEWING to the target, the level left behind kept as the origin, the slew time
started (R35, R36). -/
def State.enterSlewing (s : State) (r : Rail) : State :=
  (s.withdraw r).moveRail r fun x =>
    { x with
      state := .slewing
      slewOrigin := some x.level
      level := x.target
      timer := .running (s.record r).slewTime.toNat }

/-- DRAINING with a cause (R41): any entry of the rail is withdrawn, and a rail that was slewing gives back what it holds
above the cost of its level. -/
def State.enterDraining (s : State) (r : Rail) (cause : DrainCause) : State :=
  let s1 := s.withdraw r
  let s2 := if (s.rail r).state = .slewing then s1.giveBack r ((s.record r).costOf (s.rail r).level) else s1
  s2.moveRail r fun x =>
    { x with
      state := .draining
      timer := .running (s.record r).drainTime.toNat
      drainCause := cause
      drainFinished := false
      slewOrigin := none }

/-- A slew down that is not begun after all: the rail stands in ON at `level` again. Its budget never moved (R36, R54). -/
def State.callBackSlew (s : State) (r : Rail) (level : Nat) : State :=
  s.moveRail r fun x => { x with state := .on, level := level, timer := .stopped, slewOrigin := none }

/-- ON at the level reached; a rail that was slewing gives back what it holds above the cost of that level (R33, R40). -/
def State.enterOn (s : State) (r : Rail) : State :=
  let s1 := if (s.rail r).state = .slewing then s.giveBack r ((s.record r).costOf (s.rail r).level) else s
  s1.moveRail r fun x => { x with state := .on, timer := .stopped, slewOrigin := none }

/-- OFF from DRAINING, and on to WAITING where the target is above 0; all budget held is given back (R44). -/
def State.finishDrain (s : State) (r : Rail) : State :=
  (s.giveBack r 0).moveRail r fun x =>
    { x with
      state := if x.target = 0 then .off else .waiting
      level := 0
      timer := .stopped
      drainFinished := false }

/-- FAULT with its kind (R47): the rail's own changes, its budget and its entry. -/
def State.enterFault (s : State) (r : Rail) (k : FaultKind) : State :=
  ((s.withdraw r).giveBack r 0).moveRail r fun x =>
    { x with
      state := .fault
      level := 0
      timer := .stopped
      slewOrigin := none
      drainFinished := false
      faultLatch := true
      faultKind := some k
      faultCount := min (x.faultCount + 1) Config.faultCountMax }

/-- Every running rail sent into DRAINING with one cause, at collapse or warm reset (R45, R50, R123). -/
def State.drainRunning (s : State) (cause : DrainCause) : State :=
  allRails.foldl (fun t r => if (t.rail r).state.running then t.enterDraining r cause else t) s

/-- The suspended flag of every defined SHED rail set or cleared (R119). -/
def State.setSuspended (s : State) (b : Bool) : State :=
  allRails.foldl
    (fun t r =>
      if (t.record r).defined ∧ (t.record r).shedClass = .shed then t.modRail r fun x => { x with suspended := b } else t) s

/-! ### A session's records -/

/-- A record placed at the tail of a session's queue, stamped with the counter; ALERTn is asserted (R148, R158, R161). -/
def State.placeRecord (s : State) (l : Link) (code : EventCode) (rail : Option Rail) (tag : Option Byte) (level : Nat)
    (detail : Detail) : State :=
  s.modSession l fun x =>
    { x with queue := x.queue ++ [⟨code, rail, tag, level, detail, s.timestamp⟩], alertn := .low }

/-- The outstanding completion of session `l` on rail `r`, if any, resolved into its queue with its own tag (R145, R147). -/
def State.resolve (s : State) (l : Link) (r : Rail) (code : EventCode) (level : Nat) (detail : Detail) : State :=
  match s.outstanding l r with
  | some o => (s.setOutstanding l r none).placeRecord l code (some r) (some o.tag) level detail
  | none => s

/-- A notice offered to session `l`: admitted where its room used, with `reserved` slots counted in, is below 24; dropped
and counted otherwise (R150, R62). -/
def State.offerNotice (s : State) (l : Link) (reserved : Nat) (code : EventCode) (rail : Option Rail) (level : Nat)
    (detail : Detail) : State :=
  if (s.session l).roomUsed + reserved < Config.sessionRoom then s.placeRecord l code rail none level detail
  else s.modSession l fun x => { x with lost := min (x.lost + 1) Config.lostMax }

/-- The session given up, all but its claims, and left in `next` (R141, steps 1 to 6). -/
def Session.tornDown (x : Session) (next : SessionState) : Session :=
  { x with
    state := next
    leaseTimer := .stopped
    mask := .empty
    table := .replicate 16 none
    queue := []
    lost := 0
    alertn := .high }

/-- Every claim entry of session `l` set to 0 (R141, step 7). -/
def State.clearClaims (s : State) (l : Link) : State := allRails.foldl (fun t r => t.setClaim l r 0) s

/-- The lease timer of an ATTACHED session started for its full length (R131, R136). -/
def State.renewLease (s : State) (l : Link) : State :=
  if (s.session l).state = .attached then
    s.modSession l fun x => { x with leaseTimer := .running (x.leaseLength.toNat * Config.leaseUnit) }
  else s

/-! ### The common path of a request (R178 to R183) -/

/-- What a request's owning block answers. -/
structure Answer where
  st     : State
  status : Status
  data   : List Byte

/-- The response frame handed to the receiver, which goes to RESPONSE (R178, R181). -/
def State.respond (s : State) (l : Link) (tag : Byte) (status : Status) (data : List Byte) : State :=
  s.modLink l fun x => { x with receiver := .response (responseFrame status tag data) }

/-- Checks 1 and 2 of R182. -/
def frameRefusal (k : Kind) (f : Frame) : Option Status :=
  if Config.maxArguments < f.length.toNat ∨ f.crc ≠ frameCrc k f then some .badFrame
  else match f.kind with
    | .unlisted _ => some .unknownKind
    | .own =>
      if k.allowsLength f.length.toNat ∧ f.args.length = f.length.toNat then none else some .badFrame

/-- The session check (R130), check 3 of R182. -/
def sessionRefusal (k : Kind) : SessionState → Option Status
  | .detached => if k = .attach then none else some .notAttached
  | .attached => if k = .attach then some .alreadyAttached else none
  | .expired => if k = .attach ∨ k = .detach then none else some .leaseExpired

/-- The lifecycle check (R164), check 4 of R182. -/
def lifecycleRefusal (k : Kind) : Lifecycle → Option Status
  | .uncommitted => if k = .claim ∨ k = .release ∨ k = .clearFault then some .notCommitted else none
  | .committed => if k = .writeRail ∨ k = .writePart ∨ k = .commit then some .locked else none

/-- A request frame that arrives on link `l`: nothing where the receiver is not in REQUEST, which alone reads SDI (R178);
otherwise the checks in the order of R182, the lease renewed where the session check passes (R131), and the answer of the
request's own rules. -/
def State.serve (s : State) (k : Kind) (l : Link) (f : Frame) (body : State → Answer) : State :=
  if (s.link l).receiver = .request then
    match frameRefusal k f with
    | some st => s.respond l f.tag st []
    | none =>
      match sessionRefusal k (s.session l).state with
      | some st => s.respond l f.tag st []
      | none =>
        let s1 := s.renewLease l
        match lifecycleRefusal k s1.lifecycle with
        | some st => s1.respond l f.tag st []
        | none => (body s1).st.respond l f.tag (body s1).status (body s1).data
  else s

end Sys2Proof.Machine
end

