-- ==== Sys2Proof/Machine/Events.lean ====
section
/-! DEFINITION. What comes about inside one event: targets recomputed and acted on, the forced-drain cascade, entry into FAULT, the grant rule, and the announcements turned into completions and notices. -/

namespace Sys2Proof.Machine

/-! ### Announcements (R23, R125) -/

/-- What a rail controller or the supply monitor announces to the sessions. A level that R23 takes after the event is read
when the sessions take the announcement, at the event's end (log 17). -/
inductive Announcement where
  | enteredOn (r : Rail) (level : Nat)
  | enteredOff (r : Rail)
  | enteredFault (r : Rail) (k : FaultKind)
  | targetRose (r : Rail)
  | forcedOff (r : Rail) (k : FaultKind)
  | suspended (r : Rail)
  | resumed (r : Rail)
  | faultCleared (r : Rail) (k : Option FaultKind) (caller : Link)
  | supplyChanged (st : SupplyState)
  deriving DecidableEq, Repr

/-- The rail an announcement is about. -/
def Announcement.rail? : Announcement → Option Rail
  | .enteredOn r _ => some r
  | .enteredOff r => some r
  | .enteredFault r _ => some r
  | .targetRose r => some r
  | .forcedOff r _ => some r
  | .suspended r => some r
  | .resumed r => some r
  | .faultCleared r _ _ => some r
  | .supplyChanged _ => none

/-- An event in progress: the state so far and the announcements made, in the order in which the sessions take them. -/
structure Event where
  st  : State
  log : List Announcement

/-- Announcements in ascending rail number, those of one rail in the order made (R23, R157). -/
def byRail (log : List Announcement) : List Announcement :=
  allRails.flatMap fun r => log.filter fun a => a.rail? = some r

/-- The event with its state changed. -/
def Event.mapState (e : Event) (f : State → State) : Event := { e with st := f e.st }

/-- The event with one more announcement. -/
def Event.announce (e : Event) (a : Announcement) : Event := { e with log := e.log ++ [a] }

/-! ### Acting on a target (R26 to R42, R54) -/

/-- A rail in ON examines its target against its level (R33). A rise is asked of the arbiter at the event's end (R34). -/
def examineTarget (r : Rail) (e : Event) : Event :=
  let x := e.st.rail r
  if x.target = 0 then e.mapState fun s => s.enterDraining r .normal
  else if x.target < x.level then e.mapState fun s => s.enterSlewing r
  else e

/-- A rail acts on a changed target by its state (R54). -/
def actOnTarget (r : Rail) (e : Event) : Event :=
  let x := e.st.rail r
  match x.state with
  | .off => if x.target = 0 then e else e.mapState fun s => s.enterWaiting r
  | .waiting => if x.target = 0 then e.mapState fun s => s.leaveWaiting r else e
  | .ramping => if x.target = 0 then e.mapState fun s => s.enterDraining r .normal else e
  | .on => examineTarget r e
  | .slewing => e
  | .draining => e
  | .fault => e

/-- Rail `r` recomputes its target and, where it changes, announces a rise from 0 outside DRAINING and acts (R53, R54, R23).
The rise stands where the target is still above 0 at the event's end (`Announcement.stands`). -/
def takeTarget (r : Rail) (e : Event) : Event :=
  let x := e.st.rail r
  let t := e.st.targetFor r
  if t = x.target then e
  else
    let e1 := e.mapState fun s => s.modRail r fun y => { y with target := t }
    actOnTarget r (if x.target = 0 ∧ x.state ≠ .draining then e1.announce (.targetRose r) else e1)

/-- A drain-finished rail that no draining child holds enters OFF (R43, R44). -/
def takeDeferredOff (r : Rail) (e : Event) : Event :=
  let x := e.st.rail r
  if x.state = .draining ∧ x.drainFinished ∧ e.st.heldByDraining r = false then
    (e.mapState fun s => s.finishDrain r).announce (.enteredOff r)
  else e

/-- Every rail takes the changes of its inputs once, each after all its children, whose holds are among its inputs
(R54, log 4). A second change, by a BACKFEED that a grant of the event finds, makes one change with the first:
`takeWholeFall`, `Announcement.stands` (log 29). -/
def settle (e : Event) : Event :=
  e.st.childFirst.foldl (fun e r => takeDeferredOff r (takeTarget r e)) e

/-- An event's own changes, with their announcements, settled; all its announcements in ascending rail number (R157). -/
def railEvent (e : Event) : Event :=
  let e1 := settle e
  { e1 with log := byRail e1.log }

/-- What follows an ordered group: the changes of the settling rails, announced after it in ascending rail number (R103). -/
def settleAfter (e : Event) : Event :=
  let e1 := settle { e with log := [] }
  { e1 with log := e.log ++ byRail e1.log }

/-! ### Entry into FAULT and the cascade (R47, R98 to R103) -/

/-- A forced drain with cause PARENT_FAULT reaches rail `r` (R45); it is announced with the kind of the fault that began
the cascade (R102). -/
def forceOff (k : FaultKind) (e : Event) (r : Rail) : Event :=
  if (e.st.rail r).state.running then
    (e.mapState fun s => s.enterDraining r .parentFault).announce (.forcedOff r k)
  else e

/-- The cascade, generation by generation, each in ascending rail number (R101 to R103). -/
def cascade (k : FaultKind) : Nat → List Rail → Event → Event
  | 0, _, e => e
  | n + 1, generation, e =>
    match generation.filter fun r => (e.st.rail r).state.running with
    | [] => e
    | hit => cascade k n (e.st.childrenOfAny hit) (hit.foldl (forceOff k) e)

/-- Rail `r` enters FAULT: one whole group of announcements in the order of R103, after those already made. -/
def faultRail (r : Rail) (k : FaultKind) (e : Event) : Event :=
  let e1 := (e.mapState fun s => s.enterFault r k).announce (.enteredFault r k)
  settleAfter (cascade k Config.railRounds (e1.st.childrenOf r) e1)

/-! ### The grant rule (R77, R78, R83 to R85) -/

/-- A rail that was in ON before its targets were taken, and that began a slew down at this event before a BACKFEED took
its last holder, has taken one change of target, to 0: it drains from the level it stood at (R37, R54; log 29). -/
def takeWholeFall (before s : State) (r : Rail) : State :=
  let x := before.rail r
  if x.state = .on ∧ (s.rail r).state = .slewing ∧ (s.rail r).target = 0 then
    (s.callBackSlew r x.level).enterDraining r .normal
  else s

/-- Every rail that the fault of a grant has brought to a second fall of its target takes the whole fall. -/
def takeWholeFalls (before : State) (e : Event) : Event := e.mapState fun s => allRails.foldl (takeWholeFall before) s

/-- A grant handed to its rail: a START leads to RAMPING, or to FAULT with BACKFEED on a MONITORED rail whose filtered PG is
HIGH, at which other rails may have changed their target a second time since `before`; a RAISE leads to SLEWING (R28, R35,
R84). -/
def handGrant (before : State) (r : Rail) (k : GrantKind) (amount : Nat) (e : Event) : Event :=
  let e1 := e.mapState fun s => s.takeBudget r amount
  match k with
  | .start =>
    if e1.st.monitored r ∧ (e1.st.rail r).pg = .high then
      takeWholeFalls before (faultRail r .backfeed e1)
    else e1.mapState fun s => s.enterRamping r
  | .raise => e1.mapState fun s => s.enterSlewing r

/-- One round of the grant rule, and whether a further round follows: entries that no longer qualify go; a new request for
amount 0 is granted, the lowest-numbered rail's first; where there is none the other new requests are placed, and the head
is granted if it fits (R77, R78, R83). -/
def grantRound (before : State) (e : Event) : Event × Bool :=
  let s1 := e.st.reconcile
  match s1.zeroRequest with
  | some (r, k) => (handGrant before r k 0 { e with st := s1 }, true)
  | none =>
    let s2 := s1.placeRequests
    match s2.budgetQueue with
    | [] => ({ e with st := s2 }, false)
    | q :: rest =>
      if s2.fits q.amount then
        (handGrant before q.rail q.kind q.amount { e with st := { s2 with budgetQueue := rest } }, true)
      else ({ e with st := s2 }, false)

/-- Rounds taken for as long as each says that a further one follows, within `n` of them. -/
def repeatRounds (round : Event → Event × Bool) : Nat → Event → Event
  | 0, e => e
  | n + 1, e =>
    match round e with
    | (e1, true) => repeatRounds round n e1
    | (e1, false) => e1

/-- The arbiter takes the requests of the event: entries that no longer qualify go, new requests for amount 0 are granted,
the others are placed, and the head is granted for as long as it fits (R78, R83). -/
def arbitrate (before : State) (n : Nat) (e : Event) : Event := repeatRounds (grantRound before) n e

/-! ### The announcements of the whole event (R54, R103, R157) -/

/-- Whether an announcement stands at the end of the event: a rise of a target that is 0 again is no change (R54; log 29). -/
def Announcement.stands (s : State) : Announcement → Bool
  | .targetRose r => (s.rail r).target != 0
  | _ => true

/-- Whether an announcement is about rail `r` or a lower one. -/
def Announcement.upTo (a : Announcement) (r : Rail) : Bool :=
  match a.rail? with
  | some x => decide (x ≤ r)
  | none => true

/-- The event's own announcements, in ascending rail number, with the fault groups of its grants placed among them: each
group whole and in the order of the grants (R103), at the number of its rail (R157; log 9). -/
def placeGroups : List Announcement → List Announcement → List Announcement
  | own, [] => own
  | own, a :: rest =>
    match a with
    | .enteredFault r _ =>
      own.filter (fun b => b.upTo r) ++ a :: placeGroups (own.filter fun b => !b.upTo r) rest
    | _ => a :: placeGroups own rest

/-! ### Announcements taken by the sessions (R156) -/

/-- A notice for session `l`, offered where its mask names the kind (R140). -/
def offerMasked (l : Link) (reserve : Option Link) (named : Bool) (code : EventCode) (rail : Option Rail) (level : Nat)
    (detail : Detail) (s : State) : State :=
  if named then s.offerNotice l (if reserve = some l then 1 else 0) code rail level detail else s

/-- A notice about rail `r` for session `l`, where it is a claimant of the rail (R52). -/
def offerClaimant (l : Link) (reserve : Option Link) (named : Bool) (code : EventCode) (r : Rail) (level : Nat)
    (detail : Detail) (s : State) : State :=
  offerMasked l reserve (named && s.claimant l r) code (some r) level detail s

/-- What an announcement does to an outstanding completion of the kind given: the code, level and detail it resolves with
(R151, R153, R99). `level` is the rail's level after the event. -/
def resolution (a : Announcement) (w : WaitKind) (level : Nat) : Option (EventCode × Nat × Detail) :=
  match a, w with
  | .enteredOn _ entered, .claimWait claimed => if claimed ≤ entered then some (.granted, entered, .absent) else none
  | .enteredOff _, .offWait => some (.offReached, 0, .absent)
  | .enteredFault _ k, _ => some (.failed, 0, .fault (some k))
  | .targetRose _, .offWait => some (.held, level, .absent)
  | _, _ => none

/-- Session `l` resolves its own completion on the announced rail, where the announcement does so (R156). -/
def resolveFor (a : Announcement) (l : Link) (s : State) : State :=
  match a.rail? with
  | none => s
  | some r =>
    match s.outstanding l r with
    | none => s
    | some o =>
      match resolution a o.kind (s.rail r).level with
      | some (code, level, detail) => s.resolve l r code level detail
      | none => s

/-- Session `l` is offered the notice of the announcement, where there is one for it (R100, R102, R109, R122, R125). -/
def noticeFor (reserve : Option Link) (a : Announcement) (l : Link) (s : State) : State :=
  let mask := (s.session l).mask
  match a with
  | .enteredFault r k => offerClaimant l reserve mask.railFault .railFault r 0 (.fault (some k)) s
  | .forcedOff r k => offerClaimant l reserve mask.forcedOff .forcedOff r (s.rail r).level (.fault (some k)) s
  | .suspended r =>
    offerClaimant l reserve mask.suspendResume .suspended r (s.rail r).level (.supply s.supply.state) s
  | .resumed r => offerClaimant l reserve mask.suspendResume .resumed r (s.rail r).level (.supply s.supply.state) s
  | .faultCleared r k caller =>
    offerClaimant l reserve (mask.faultCleared && l != caller) .faultCleared r 0 (.fault k) s
  | .supplyChanged st => offerMasked l reserve mask.supplyChange .supplyChange none 0 (.supply st) s
  | .enteredOn _ _ => s
  | .enteredOff _ => s
  | .targetRose _ => s

/-- Session `l` takes one announcement: its completion first, then its notice; nothing where it is not ATTACHED (R156). -/
def hear (reserve : Option Link) (a : Announcement) (s : State) (l : Link) : State :=
  if (s.session l).state = .attached then noticeFor reserve a l (resolveFor a l s) else s

/-- The four sessions take the announcements in their order. `reserve` names a session one slot of whose room is held for
a completion yet to be set up (R62). -/
def deliver (reserve : Option Link) (log : List Announcement) (s : State) : State :=
  log.foldl (fun s a => allLinks.foldl (hear reserve a) s) s

/-- The end of an event whose own announcements are those of `e`: the grant rule, then the announcements, those of `lead`
first, which a rule puts ahead of the rails' own. `before` is the state whose targets the event found. -/
def conclude (reserve : Option Link) (lead : List Announcement) (before : State) (e : Event) : State :=
  let e1 := arbitrate before Config.grantRounds { e with log := [] }
  deliver reserve ((lead ++ placeGroups e.log e1.log).filter fun a => a.stands e1.st) e1.st

/-- An event at the rails: they act on what has changed, and the event ends. -/
def railTurn (reserve : Option Link) (lead : List Announcement) (e : Event) : State :=
  conclude reserve lead e.st (railEvent e)

/-- The end of an event that is one ordered group, ahead of the groups that its grants cause (R103). -/
def concludeGroup (e : Event) : State := conclude none e.log e.st { e with log := [] }

/-! ### Events shared by several commands -/

/-- The end of a ramp or a slew in ON, with its announcement and the examination of the target (R33). -/
def reachOn (r : Rail) (s : State) : State :=
  let s1 := s.enterOn r
  railTurn none [] (examineTarget r ⟨s1, [.enteredOn r (s1.rail r).level]⟩)

/-- An entry into FAULT as the event itself. -/
def fail (r : Rail) (k : FaultKind) (s : State) : State := concludeGroup (faultRail r k ⟨s, []⟩)

/-- The claim entry of session `l` on rail `r` rewritten, and the rail acting on its target (R54, R62, R66, R67). -/
def rewriteClaim (reserve : Option Link) (l : Link) (r : Rail) (v : Nat) (s : State) : State :=
  railTurn reserve [] ⟨s.setClaim l r v, []⟩

/-- The teardown of session `l` (R141): the session first, then its claims, on which the rails act (R70). -/
def teardown (l : Link) (next : SessionState) (s : State) : State :=
  railTurn none [] ⟨(s.modSession l fun x => x.tornDown next).clearClaims l, []⟩

/-- The holdoff timer in a supply state just entered: running in RECOVERING alone (R113, R117). -/
def holdoffIn (p : PartRecord) : SupplyState → Timer
  | .recovering => .running p.holdoff
  | _ => .stopped

/-- The announcements of the suspended flags that `b` changes, of rails with a claim demand, in ascending rail number
(R122). -/
def suspensionLog (s : State) (b : Bool) : List Announcement :=
  (allRails.filter fun r =>
      (s.record r).defined && (s.record r).shedClass == .shed && (s.rail r).suspended != b
        && (s.rail r).claimDemand != 0).map
    (if b then .suspended else .resumed)

/-- A change of supply state: the limit, the holdoff, the suspended flags, the forced drain of a collapse, and the records
in the order of R125 (R118). -/
def changeSupply (st : SupplyState) (s : State) : State :=
  let old := s.supply.state
  let s1 : State :=
    { s with
      supply := { s.supply with state := st, holdoff := holdoffIn s.part st }
      limit := s.part.limitIn st }
  let e : Event :=
    match suspensionAt old st with
    | some b => ⟨s1.setSuspended b, .supplyChanged st :: suspensionLog s1 b⟩
    | none => ⟨s1, [.supplyChanged st]⟩
  railTurn none e.log ⟨if st = .collapse then e.st.drainRunning .collapse else e.st, []⟩

/-- The evaluation of SENSE at COMMIT and at a warm reset (R126, R127): the outputs, the state found, the limit that goes
with it, no holdoff, and the flags of the SHED rails set where it finds LOW. -/
def evaluateSupply (sense : Nat) (s : State) : State :=
  let st := s.part.evaluated sense
  let s1 : State :=
    { s with
      supply :=
        { active := true
          state := st
          warnOut := if sense < s.part.warn then .below else .above
          critOut := if sense < s.part.crit then .below else .above
          holdoff := .stopped }
      limit := s.part.limitIn st
      sense := sense }
  if st = .low then s1.setSuspended true else s1

end Sys2Proof.Machine
end

