-- ==== Sys2Proof/Machine/Budget.lean ====
section
/-! DEFINITION. The grants of the budget arbiter as commands of their own (chapter 4). -/

namespace Sys2Proof.Machine

/-- The head of the queue, where it is an entry of kind `k` of rail `r`, is one its rail still asks for, and fits: granted,
and the grant rule applied again (R83). Every event applies the grant rule to its end, so after one nothing is left to
grant here (log 5). -/
def grantHead (r : Rail) (k : GrantKind) (s : State) : State :=
  match s.reconcile.budgetQueue with
  | q :: rest =>
    if q.rail = r ∧ q.kind = k ∧ s.fits q.amount then
      concludeGroup (handGrant s r k q.amount ⟨{ s.reconcile with budgetQueue := rest }, []⟩)
    else s
  | [] => s

/-- START_GRANT (R28, R84, R85). -/
def execStartGrant (r : Rail) (s : State) : Host.Outcome State Fault Refusal := .next (grantHead r .start s)

/-- RAISE_GRANT (R35, R84). -/
def execRaiseGrant (r : Rail) (s : State) : Host.Outcome State Fault Refusal := .next (grantHead r .raise s)

end Sys2Proof.Machine
end

