-- ==== Sys2Proof/Machine/Claims.lean ====
section
/-! DEFINITION. CLAIM, RELEASE without wait, RELEASE with wait and CLEAR_FAULT (chapters 3 and 5). -/

namespace Sys2Proof.Machine

/-- What a CLAIM-WAIT for a level resolves with at once, by the rail's record; none where it stays outstanding (R63). -/
def claimOutcome (x : RailRuntime) (level : Nat) : Option (EventCode × Nat × Detail) :=
  if x.state = .fault then some (.failed, 0, .fault x.faultKind)
  else if x.state = .on ∧ level ≤ x.level then some (.granted, x.level, .absent)
  else none

/-- What an OFF-WAIT resolves with at once, by the rail's record; none where it stays outstanding (R67, R153). A rail in FAULT
whose target stays above 0 answers HELD, as R67 and R153 have it; R99 and R106 say OFF_REACHED of every rail in FAULT. The
choice is the model's (log 26). -/
def offOutcome (x : RailRuntime) : Option (EventCode × Nat × Detail) :=
  if x.target ≠ 0 then some (.held, x.level, .absent)
  else if x.state = .off ∨ x.state = .fault then some (.offReached, 0, .absent)
  else none

/-- A completion set up for rail `r` (R145), and resolved at once where it has an outcome. -/
def setUp (l : Link) (r : Rail) (o : Outstanding) (outcome : Option (EventCode × Nat × Detail)) (s : State) : State :=
  let s1 := s.setOutstanding l r (some o)
  match outcome with
  | some (code, level, detail) => s1.resolve l r code level detail
  | none => s1

/-- The session's outstanding completion on the rail closed by a later request, with the rail's level as it stands before
that request's changes (R147, R155). -/
def closeOutstanding (l : Link) (r : Rail) (code : EventCode) (s : State) : State :=
  s.resolve l r code (s.rail r).level .absent

/-- An accepted CLAIM, in the three steps of R62, with one slot reserved through the second. -/
def claimTaken (l : Link) (r : Rail) (level : Nat) (tag : Byte) (s : State) : State :=
  let s1 := rewriteClaim (some l) l r level (closeOutstanding l r .superseded s)
  setUp l r ⟨.claimWait level, tag⟩ (claimOutcome (s1.rail r) level) s1

/-- CLAIM once it has passed the common checks: the checks of R61, then its action. -/
def claimAnswer (l : Link) (f : Frame) (s : State) : Answer :=
  match s.namedRail (argByte f 0) with
  | none => ⟨s, .noRail, []⟩
  | some r =>
    let level := (argByte f 1).toNat
    if level = 0 ∨ (s.record r).levelCount.toNat < level then ⟨s, .badLevel, []⟩
    else if Config.sessionRoom ≤ (s.session l).roomUsed then ⟨s, .queueFull, []⟩
    else ⟨claimTaken l r level f.tag s, .accepted, []⟩

/-- CLAIM (R61 to R64). -/
def execClaim (l : Link) (f : Frame) (s : State) : Host.Outcome State Fault Refusal :=
  .next (s.serve .claim l f (claimAnswer l f))

/-- An accepted RELEASE without wait (R66): an outstanding CLAIM-WAIT cancelled, an OFF-WAIT left, the entry set to 0. -/
def releaseNow (l : Link) (r : Rail) (s : State) : State :=
  let s1 :=
    match s.outstanding l r with
    | some ⟨.claimWait _, _⟩ => closeOutstanding l r .cancelled s
    | _ => s
  rewriteClaim none l r 0 s1

/-- An accepted RELEASE with wait (R67), with one slot reserved through its second step. -/
def releaseWaiting (l : Link) (r : Rail) (tag : Byte) (s : State) : State :=
  let s1 := rewriteClaim (some l) l r 0 (closeOutstanding l r .superseded s)
  setUp l r ⟨.offWait, tag⟩ (offOutcome (s1.rail r)) s1

/-- RELEASE once it has passed the common checks: the checks of R65, then the action its wait choice asks for. -/
def releaseAnswer (l : Link) (f : Frame) (s : State) : Answer :=
  match s.namedRail (argByte f 0) with
  | none => ⟨s, .noRail, []⟩
  | some r =>
    if f.waitByte = 0x00 then ⟨releaseNow l r s, .ok, []⟩
    else if f.waitByte = 0x01 then
      if Config.sessionRoom ≤ (s.session l).roomUsed then ⟨s, .queueFull, []⟩
      else ⟨releaseWaiting l r f.tag s, .accepted, []⟩
    else ⟨s, .badArgument, []⟩

/-- RELEASE with wait choice 0 (R65, R66). The frame's own wait choice byte decides (log 7). -/
def execReleaseWithoutWait (l : Link) (f : Frame) (s : State) : Host.Outcome State Fault Refusal :=
  .next (s.serve .release l f (releaseAnswer l f))

/-- RELEASE with wait choice 1 (R65, R67). The frame's own wait choice byte decides (log 7). -/
def execReleaseWithWait (l : Link) (f : Frame) (s : State) : Host.Outcome State Fault Refusal :=
  .next (s.serve .release l f (releaseAnswer l f))

/-- An accepted CLEAR_FAULT (R48, R108): the latch cleared, the rail in OFF or, where its target is above 0, on in WAITING,
and the fault-cleared announcement with the kind the rail had. -/
def clearFaultTaken (l : Link) (r : Rail) (s : State) : State :=
  let x := s.rail r
  let s1 := s.moveRail r fun y =>
    { y with faultLatch := false, level := 0, state := if y.target = 0 then .off else .waiting }
  railTurn none [] ⟨s1, [.faultCleared r x.faultKind l]⟩

/-- CLEAR_FAULT once it has passed the common checks: the checks of R107, then its action; the response reports the rail's
state after the event (R108). -/
def clearFaultAnswer (l : Link) (f : Frame) (s : State) : Answer :=
  match s.namedRail (argByte f 0) with
  | none => ⟨s, .noRail, []⟩
  | some r =>
    let x := s.rail r
    let limit := (s.record r).retryLimit.toNat
    if s.claim l r = 0 then ⟨s, .notHolder, []⟩
    else if x.faultLatch = false then ⟨s, .notFaulted, []⟩
    else if limit ≠ 0 ∧ limit ≤ x.faultCount then ⟨s, .exhausted, []⟩
    else
      let t := clearFaultTaken l r s
      ⟨t, .ok, [(t.rail r).state.code]⟩

/-- CLEAR_FAULT (R107 to R109). -/
def execClearFault (l : Link) (f : Frame) (s : State) : Host.Outcome State Fault Refusal :=
  .next (s.serve .clearFault l f (clearFaultAnswer l f))

end Sys2Proof.Machine
end

