-- ==== Sys2Proof/Machine/Commission.lean ====
section
/-! DEFINITION. WRITE_RAIL, WRITE_PART, READ_RAIL, READ_PART and COMMIT (chapter 9). -/

namespace Sys2Proof.Machine

/-! ### Writing and reading the table -/

/-- WRITE_RAIL once it has passed the session and lifecycle checks (R165). -/
def writeRailAnswer (f : Frame) (s : State) : Answer :=
  if h : (argByte f 0).toNat < 16 then
    if recordLengthOk f.args then ⟨s.setRecord ⟨(argByte f 0).toNat, h⟩ (parseRailRecord f.args), .ok, []⟩
    else ⟨s, .badArgument, []⟩
  else ⟨s, .badArgument, []⟩

/-- WRITE_RAIL (R165). -/
def execWriteRail (l : Link) (f : Frame) (s : State) : Host.Outcome State Fault Refusal :=
  .next (s.serve .writeRail l f (writeRailAnswer f))

/-- WRITE_PART (R166). -/
def execWritePart (l : Link) (f : Frame) (s : State) : Host.Outcome State Fault Refusal :=
  .next (s.serve .writePart l f fun t => ⟨{ t with part := parsePartRecord f.args }, .ok, []⟩)

/-- READ_RAIL once it has passed the common checks (R167). -/
def readRailAnswer (f : Frame) (s : State) : Answer :=
  if h : (argByte f 0).toNat < 16 then
    ⟨s, .ok, railRecordBytes ⟨(argByte f 0).toNat, h⟩ (s.record ⟨(argByte f 0).toNat, h⟩)⟩
  else ⟨s, .badArgument, []⟩

/-- READ_RAIL (R167). -/
def execReadRail (l : Link) (f : Frame) (s : State) : Host.Outcome State Fault Refusal :=
  .next (s.serve .readRail l f (readRailAnswer f))

/-- READ_PART (R167). -/
def execReadPart (l : Link) (f : Frame) (s : State) : Host.Outcome State Fault Refusal :=
  .next (s.serve .readPart l f fun t => ⟨t, .ok, partRecordBytes t.part⟩)

/-! ### The checks of COMMIT (R168 to R170) -/

/-- Why a COMMIT fails (R189). -/
inductive CommitReason where
  | noBudget
  | badLowBudget
  | badThresholds
  | badHoldoff
  | noRails
  | badLevels
  | badCosts
  | badParent
  | badTimes
  | cycle
  deriving DecidableEq, Repr

/-- The code of a commit failure reason (R189). -/
def CommitReason.code : CommitReason → Byte
  | .noBudget => 0x01
  | .badLowBudget => 0x02
  | .badThresholds => 0x03
  | .badHoldoff => 0x04
  | .noRails => 0x05
  | .badLevels => 0x06
  | .badCosts => 0x07
  | .badParent => 0x08
  | .badTimes => 0x09
  | .cycle => 0x0A

/-- Checks 1 to 4 of R168. -/
def partFault (p : PartRecord) : Option CommitReason :=
  if p.budgetFull = 0 then some .noBudget
  else if p.budgetFull < p.budgetLow then some .badLowBudget
  else if p.warnCode ≤ p.critCode then some .badThresholds
  else if p.holdoffCode = 0 then some .badHoldoff
  else none

/-- Check a of R169. -/
def levelsOk (r : Rail) (x : RailRecord) : Bool :=
  decide (1 ≤ x.levelCount.toNat ∧ x.levelCount.toNat ≤ 8 ∧ (8 ≤ r.val → x.levelCount.toNat = 1))

/-- The entries do not decrease. -/
def nonDecreasing : List (BitVec 16) → Bool
  | a :: b :: rest => decide (a ≤ b) && nonDecreasing (b :: rest)
  | _ => true

/-- Check b of R169. -/
def costsOk (p : PartRecord) (x : RailRecord) : Bool :=
  x.costs.all (fun c => decide (c.toNat ≤ 1023)) && nonDecreasing x.costs
    && decide (((x.costs.getLast?).getD 0).toNat ≤ p.budgetFull.toNat)

/-- No entry stands twice. -/
def distinct : List Byte → Bool
  | [] => true
  | b :: rest => !rest.contains b && distinct rest

/-- Check c of R169. -/
def parentsOk (s : State) (r : Rail) (x : RailRecord) : Bool :=
  decide (x.parents.length ≤ 4)
    && x.parents.all (fun b => (s.namedRail b).any fun p => p != r)
    && distinct x.parents

/-- Check d of R169. -/
def timesOk (x : RailRecord) : Bool :=
  decide (1 ≤ x.rampTime.toNat ∧ 1 ≤ x.drainTime.toNat
    ∧ (1 < x.levelCount.toNat → 1 ≤ x.slewTime.toNat ∧ x.slewTime.toNat ≤ 63))

/-- The first of the four checks of R169 that a rail fails; an absent record is not looked at. -/
def railFaultAt (s : State) (r : Rail) : Option CommitReason :=
  let x := s.record r
  if x.defined = false then none
  else if levelsOk r x = false then some .badLevels
  else if costsOk s.part x = false then some .badCosts
  else if parentsOk s r x = false then some .badParent
  else if timesOk x = false then some .badTimes
  else none

/-- The rails reached from `from_` by following parent lists any number of times, within `n` rounds. -/
def State.ancestorsFrom (s : State) : Nat → List Rail → List Rail
  | 0, reached => reached
  | n + 1, reached =>
    s.ancestorsFrom n (allRails.filter fun p => reached.contains p || reached.any fun c => s.isParent p c)

/-- The rails that stand above rail `r`: its parents, their parents, and so on (R7). -/
def State.ancestors (s : State) (r : Rail) : List Rail := s.ancestorsFrom Config.railRounds (s.parentsOf r)

/-- Whether a defined rail lies on a cycle (R170). -/
def State.onCycle (s : State) (r : Rail) : Bool := (s.record r).defined && (s.ancestors r).contains r

/-- The first check of R168 that the table fails, with the rail byte reported; none where it passes them all. -/
def commitFault (s : State) : Option (CommitReason × Byte) :=
  match partFault s.part with
  | some reason => some (reason, absentByte)
  | none =>
    if allRails.all (fun r => !(s.record r).defined) then some (.noRails, absentByte)
    else
      match allRails.findSome? fun r => (railFaultAt s r).map fun reason => (reason, oneByte r.val) with
      | some failure => some failure
      | none => (allRails.find? s.onCycle).map fun r => (.cycle, oneByte r.val)

/-! ### COMMIT -/

/-- A runtime record as COMMIT activates it: the values of R49, the filtered PG following its line (R21). -/
def RailRuntime.activated (x : RailRuntime) : RailRuntime := { RailRuntime.powerOn with pg := x.pg }

/-- The COMMIT that is accepted (R172): the lifecycle, the rail controllers, the arbiter, the supply monitor's initial
evaluation, and SUPPLY_CHANGE where it finds LOW or COLLAPSE (R126). -/
def commitTaken (sense : Nat) (s : State) : State :=
  let s1 := { s with lifecycle := .committed, allocated := 0, budgetQueue := [] }.modRails fun _ => RailRuntime.activated
  let s2 := evaluateSupply sense s1
  if s2.supply.state = .normal then s2 else deliver none [.supplyChanged s2.supply.state] s2

/-- COMMIT once it has passed the session and lifecycle checks (R168 to R172). -/
def commitAnswer (sense : Nat) (s : State) : Answer :=
  match commitFault s with
  | some (reason, rail) => ⟨s, .commitFailed, [reason.code, rail]⟩
  | none =>
    let t := commitTaken sense s
    ⟨t, .ok, [t.reportedSupply.code]⟩

/-- COMMIT (R168 to R173). SENSE stands at `sense` at the event. -/
def execCommit (l : Link) (f : Frame) (sense : Nat) (s : State) : Host.Outcome State Fault Refusal :=
  .next (State.serve { s with sense := sense } .commit l f (commitAnswer sense))

end Sys2Proof.Machine
end

