-- ==== Sys2Proof/Machine/LinkLines.lean ====
section
/-! DEFINITION. The events on a link's lines outside a request: the fall and the rise of CSn, the frame discarded, and the end of a response (R178, R179, R181). -/

namespace Sys2Proof.Machine

/-- CSN_FALL (R178): a window opens. The receiver leaves IDLE for REQUEST where LRSTn and RESETn are HIGH; where one is LOW it is
held in IDLE and the window is ignored. A line that is LOW already does not fall (log 10). -/
def csnFall (l : Link) (s : State) : State :=
  if (s.link l).csn = .low then s
  else
    s.modLink l fun x =>
      { x with
        csn := .low
        receiver :=
          if x.receiver = .idle ∧ x.lrstn = .high ∧ s.resetn = .high then .request else x.receiver }

/-- CSN_FALL (R178). -/
def execCsnFall (l : Link) (s : State) : Host.Outcome State Fault Refusal := .next (csnFall l s)

/-- A rise of CSn (R178): the window ends, whatever it held, and the receiver is in IDLE. A frame partly received is
discarded with no other effect (R179), and the rest of a response is lost. A line that is HIGH already does not rise
(log 10). -/
def csnRise (l : Link) (s : State) : State :=
  if (s.link l).csn = .high then s else s.modLink l fun x => { x with csn := .high, receiver := .idle }

/-- CSN_RISE (R178): the rise of CSn after the CRC byte has arrived. -/
def execCsnRise (l : Link) (s : State) : Host.Outcome State Fault Refusal := .next (csnRise l s)

/-- FRAME_DISCARD (R179): the rise of CSn before the CRC byte has arrived; the receiver's state tells the two apart
(log 19). -/
def execFrameDiscard (l : Link) (s : State) : Host.Outcome State Fault Refusal := .next (csnRise l s)

/-- RESPONSE_END (R178, R181): the response has been sent to its end; SDO carries 0xFF from then on. -/
def responseEnd (l : Link) (s : State) : State :=
  match (s.link l).receiver with
  | .response _ => s.modLink l fun x => { x with receiver := .done }
  | _ => s

/-- RESPONSE_END (R178). -/
def execResponseEnd (l : Link) (s : State) : Host.Outcome State Fault Refusal := .next (responseEnd l s)

end Sys2Proof.Machine
end

