-- ==== Sys2Proof/Machine/Queries.lean ====
section
/-! DEFINITION. QUERY_RAIL and QUERY_PART (chapter 10, R184 and R185). -/

namespace Sys2Proof.Machine

/-- QUERY_RAIL once it has passed the common checks (R184): a number above 15 is refused; an absent rail is reported like
any other. -/
def queryRailAnswer (l : Link) (f : Frame) (s : State) : Answer :=
  if h : (argByte f 0).toNat < 16 then ⟨s, .ok, queryRailData s l ⟨(argByte f 0).toNat, h⟩⟩ else ⟨s, .noRail, []⟩

/-- QUERY_RAIL (R184). -/
def execQueryRail (l : Link) (f : Frame) (s : State) : Host.Outcome State Fault Refusal :=
  .next (s.serve .queryRail l f (queryRailAnswer l f))

/-- QUERY_PART (R185). -/
def execQueryPart (l : Link) (f : Frame) (s : State) : Host.Outcome State Fault Refusal :=
  .next (s.serve .queryPart l f fun t => ⟨t, .ok, queryPartData t⟩)

end Sys2Proof.Machine
end

