-- ==== Sys2Proof/Machine/Rails.lean ====
section
/-! DEFINITION. The events at a rail: a PG change taken, the expiries of its timer, and the deferred end of a drain (chapters 2 and 5). -/

namespace Sys2Proof.Machine

/-- PG_CHANGE_TAKEN (R21): the filtered PG takes the level; a MONITORED rail in RAMPING taking HIGH enters ON (R29) and one in
ON taking LOW faults with PG_LOST (R38). In every other case nothing else happens. A level the filter already has is no
change (log 10). -/
def pgChange (r : Rail) (level : Line) (s : State) : State :=
  if (s.rail r).pg = level then s
  else
    let s1 := s.modRail r fun x => { x with pg := level }
    if s1.activeRail r ∧ s1.monitored r then
      match (s.rail r).state, level with
      | .ramping, .high => reachOn r s1
      | .on, .low => fail r .pgLost s1
      | _, _ => s1
    else s1

/-- PG_CHANGE_TAKEN (R21, R29, R38). -/
def execPgChangeTaken (r : Rail) (level : Line) (s : State) : Host.Outcome State Fault Refusal :=
  .next (pgChange r level s)

/-- RAMP_TIME_EXPIRY (R30): a TIMED rail enters ON, a MONITORED one faults with RAMP_TIMEOUT. -/
def rampExpiry (r : Rail) (s : State) : State :=
  if (s.rail r).state = .ramping ∧ (s.rail r).timer.expired then
    if s.monitored r then fail r .rampTimeout s else reachOn r s
  else s

/-- RAMP_TIME_EXPIRY (R30, R93). -/
def execRampTimeExpiry (r : Rail) (s : State) : Host.Outcome State Fault Refusal := .next (rampExpiry r s)

/-- SLEW_TIME_EXPIRY (R40): the rail enters ON at its new level, or, MONITORED with its filtered PG LOW, faults with
SLEW_FAIL. -/
def slewExpiry (r : Rail) (s : State) : State :=
  if (s.rail r).state = .slewing ∧ (s.rail r).timer.expired then
    if s.monitored r ∧ (s.rail r).pg = .low then fail r .slewFail s else reachOn r s
  else s

/-- SLEW_TIME_EXPIRY (R40, R95). -/
def execSlewTimeExpiry (r : Rail) (s : State) : Host.Outcome State Fault Refusal := .next (slewExpiry r s)

/-- DRAIN_TIME_EXPIRY (R43): a MONITORED rail whose filtered PG is HIGH faults with DRAIN_STUCK; any other is marked
drain-finished and enters OFF unless a draining child holds it. -/
def drainExpiry (r : Rail) (s : State) : State :=
  if (s.rail r).state = .draining ∧ (s.rail r).timer.expired then
    if s.monitored r ∧ (s.rail r).pg = .high then fail r .drainStuck s
    else railTurn none [] ⟨s.modRail r fun x => { x with timer := .stopped, drainFinished := true }, []⟩
  else s

/-- DRAIN_TIME_EXPIRY (R43, R44, R96). -/
def execDrainTimeExpiry (r : Rail) (s : State) : Host.Outcome State Fault Refusal := .next (drainExpiry r s)

/-- DEFERRED_OFF (R43): a drain-finished rail that no draining child holds enters OFF. The event at which the last such
child leaves DRAINING has done so already (log 6). -/
def deferredOffTaken (r : Rail) (s : State) : State :=
  let x := s.rail r
  if x.state = .draining ∧ x.drainFinished ∧ s.heldByDraining r = false then
    railTurn none [] ⟨s.finishDrain r, [.enteredOff r]⟩
  else s

/-- DEFERRED_OFF (R43, R44). -/
def execDeferredOff (r : Rail) (s : State) : Host.Outcome State Fault Refusal := .next (deferredOffTaken r s)

end Sys2Proof.Machine
end

