-- ==== Sys2Proof/Machine/Resets.lean ====
section
/-! DEFINITION. The link reset, the warm reset and the power-on reset (R139, R174 to R177). -/

namespace Sys2Proof.Machine

/-- LINK_RESET (R139): LRSTn of a link falls. The receiver goes to IDLE and the session is torn down to DETACHED, whatever its
state. A line that is LOW already does not fall (log 10). -/
def linkReset (l : Link) (s : State) : State :=
  if (s.link l).lrstn = .low then s
  else teardown l .detached (s.modLink l fun x => { x with lrstn := .low, receiver := .idle })

/-- LINK_RESET (R139). -/
def execLinkReset (l : Link) (s : State) : Host.Outcome State Fault Refusal := .next (linkReset l s)

/-- LINK_RESET_RELEASE (R139): LRSTn of a link rises; the receiver stays in IDLE until CSn next falls. -/
def linkResetRelease (l : Link) (s : State) : State :=
  if (s.link l).lrstn = .high then s
  else s.modLink l fun x => { x with lrstn := .high, receiver := .idle }

/-- LINK_RESET_RELEASE (R139, R178). -/
def execLinkResetRelease (l : Link) (s : State) : Host.Outcome State Fault Refusal := .next (linkResetRelease l s)

/-- A receiver at a fall of RESETn: a frame still arriving is discarded; a response begun goes on to its end (R176, R178). -/
def Receiver.atWarmReset : Receiver → Receiver
  | .request => .idle
  | rx => rx

/-- A runtime record at a warm reset, before the rail's state changes (R50): claims, fault state and suspension cleared. -/
def RailRuntime.cleared (x : RailRuntime) : RailRuntime :=
  { x with
    claims := .replicate 4 0
    faultLatch := false
    faultKind := none
    faultCount := 0
    suspended := false }

/-- A rail in FAULT or WAITING enters OFF at a warm reset, unannounced, with a target of 0 until its holds are looked at
(R50, log 20). -/
def State.restartIdle (s : State) (r : Rail) : State :=
  if (s.rail r).state = .fault ∨ (s.rail r).state = .waiting then
    (s.giveBack r 0).moveRail r fun x => { x with state := .off, level := 0, target := 0, timer := .stopped }
  else s

/-- What a warm reset does to the sessions, the links and the timebase (R141, R158, R176). -/
def State.forgetMasters (s : State) : State :=
  allLinks.foldl
    (fun t l =>
      (t.modSession l fun x => x.tornDown .detached).modLink l fun x => { x with receiver := x.receiver.atWarmReset })
    { s with timestamp := 0, resetn := .low }

/-- What a warm reset does to the rails before their targets are looked at (R50, R90). -/
def State.restartRails (s : State) : State :=
  let s1 := { s.modRails fun _ => RailRuntime.cleared with budgetQueue := [] }
  allRails.foldl State.restartIdle (s1.drainRunning .restart)

/-- The supply monitor at a warm reset: a fresh evaluation where the part is COMMITTED, IDLE otherwise (R127). -/
def restartSupply (sense : Nat) (s : State) : State :=
  if s.lifecycle = .committed then evaluateSupply sense s else { s with sense := sense }

/-- WARM_RESET (R175): RESETn falls. The rails then take their targets from the holds that are left (R60), and the roots made
ready are served (R90). A line that is LOW already does not fall (log 10). -/
def warmReset (sense : Nat) (s : State) : State :=
  if s.resetn = .low then { s with sense := sense }
  else railTurn none [] ⟨restartSupply sense s.forgetMasters.restartRails, []⟩

/-- WARM_RESET (R175). SENSE stands at `sense` at the event. -/
def execWarmReset (sense : Nat) (s : State) : Host.Outcome State Fault Refusal := .next (warmReset sense s)

/-- WARM_RESET_RELEASE (R176): RESETn rises. A response or a DONE that the reset left where it was stays there until its
own end (log 11). -/
def execWarmResetRelease (s : State) : Host.Outcome State Fault Refusal := .next { s with resetn := .high }

/-- POWER_ON_RESET (R174): every block takes its power-on values. The input lines and SENSE stay as the board holds them, and
the waiting commands stay waiting (log 12). -/
def powerOnReset (s : State) : State :=
  allLinks.foldl (fun t l => t.modLink l fun x => { x with csn := (s.link l).csn, lrstn := (s.link l).lrstn })
    { State.reset with pending := s.pending, resetn := s.resetn, sense := s.sense }

/-- POWER_ON_RESET (R174). -/
def execPowerOnReset (s : State) : Host.Outcome State Fault Refusal := .next (powerOnReset s)

end Sys2Proof.Machine
end

