-- ==== Sys2Proof/Machine/Sessions.lean ====
section
/-! DEFINITION. ATTACH, DETACH, RENEW, FETCH_EVENT and the lease expiry (chapters 7 and 8). -/

namespace Sys2Proof.Machine

/-- ATTACH once it has passed the session check (R132): the arguments checked, then the session attached. -/
def attachAnswer (l : Link) (f : Frame) (s : State) : Answer :=
  let lease := argByte f 0
  let mask := argByte f 1
  if lease = 0 ∨ mask.extractLsb' 5 3 ≠ 0 then ⟨s, .badArgument, []⟩
  else
    ⟨s.modSession l fun x =>
        { x with
          state := .attached
          leaseLength := lease
          leaseTimer := .running (lease.toNat * Config.leaseUnit)
          mask := parseMask mask },
      .ok, [oneByte l.val, s.lifecycle.code, s.reportedSupply.code]⟩

/-- ATTACH (R132, R133). -/
def execAttach (l : Link) (f : Frame) (s : State) : Host.Outcome State Fault Refusal :=
  .next (s.serve .attach l f (attachAnswer l f))

/-- DETACH once it has passed the session check (R135): the teardown of an ATTACHED session; an EXPIRED one has nothing left
to give up. -/
def detachAnswer (l : Link) (s : State) : Answer :=
  if (s.session l).state = .attached then ⟨teardown l .detached s, .ok, []⟩
  else ⟨s.modSession l fun x => { x with state := .detached }, .ok, []⟩

/-- DETACH (R135). -/
def execDetach (l : Link) (f : Frame) (s : State) : Host.Outcome State Fault Refusal :=
  .next (s.serve .detach l f (detachAnswer l))

/-- RENEW (R134): the lease was renewed at the session check (R131), and nothing else is done. -/
def execRenew (l : Link) (f : Frame) (s : State) : Host.Outcome State Fault Refusal :=
  .next (s.serve .renew l f fun t => ⟨t, .ok, []⟩)

/-- FETCH_EVENT once it has passed its checks (R159): the head record removed and returned, the lost-notice count reported
and cleared, ALERTn following the queue (R161). An EMPTY answer clears the count too, as R159's table says, although R131
says that a fetch answered EMPTY changes nothing else. The choice is the model's (log 28). -/
def fetchAnswer (l : Link) (s : State) : Answer :=
  let x := s.session l
  match x.queue with
  | [] => ⟨s.modSession l fun y => { y with lost := 0 }, .empty, [0, oneByte x.lost]⟩
  | e :: rest =>
    ⟨s.modSession l fun y =>
        { y with queue := rest, lost := 0, alertn := if rest.isEmpty then .high else y.alertn },
      .ok, [oneByte rest.length, oneByte x.lost] ++ eventRecordBytes e⟩

/-- FETCH_EVENT (R159, R160). -/
def execFetchEvent (l : Link) (f : Frame) (s : State) : Host.Outcome State Fault Refusal :=
  .next (s.serve .fetchEvent l f (fetchAnswer l))

/-- LEASE_EXPIRY (R137): the session of a lease that has run its full length is torn down to EXPIRED. -/
def execLeaseExpiry (l : Link) (s : State) : Host.Outcome State Fault Refusal :=
  .next (if (s.session l).state = .attached ∧ (s.session l).leaseTimer.expired then teardown l .expired s else s)

end Sys2Proof.Machine
end

