-- ==== Sys2Proof/Machine/Supply.lean ====
section
/-! DEFINITION. The comparator events of the supply monitor and its recovery holdoff (chapter 6). -/

namespace Sys2Proof.Machine

/-- FALL_BELOW_WARN (R114, R115): from NORMAL and from RECOVERING to LOW. -/
def fallBelowWarn (s : State) : State :=
  if s.supply.active ∧ s.supply.warnOut = .above ∧ s.sense < s.part.warn then
    let s1 := { s with supply := { s.supply with warnOut := .below } }
    match s.supply.state with
    | .normal => changeSupply .low s1
    | .recovering => changeSupply .low s1
    | .low => s1
    | .collapse => s1
  else s

/-- FALL_BELOW_WARN (R115, R116). SENSE stands at `sense` at the event. -/
def execFallBelowWarn (sense : Nat) (s : State) : Host.Outcome State Fault Refusal :=
  .next (fallBelowWarn { s with sense := sense })

/-- FALL_BELOW_CRIT (R114, R115): from any other state to COLLAPSE. -/
def fallBelowCrit (s : State) : State :=
  if s.supply.active ∧ s.supply.critOut = .above ∧ s.sense < s.part.crit then
    let s1 := { s with supply := { s.supply with critOut := .below } }
    match s.supply.state with
    | .normal => changeSupply .collapse s1
    | .low => changeSupply .collapse s1
    | .recovering => changeSupply .collapse s1
    | .collapse => s1
  else s

/-- FALL_BELOW_CRIT (R115, R116, R123). SENSE stands at `sense` at the event. -/
def execFallBelowCrit (sense : Nat) (s : State) : Host.Outcome State Fault Refusal :=
  .next (fallBelowCrit { s with sense := sense })

/-- RISE_ABOVE_CRIT_BAND (R114, R115): from COLLAPSE to LOW. -/
def riseAboveCritBand (s : State) : State :=
  if s.supply.active ∧ s.supply.critOut = .below ∧ s.part.crit + s.part.band < s.sense then
    let s1 := { s with supply := { s.supply with critOut := .above } }
    match s.supply.state with
    | .collapse => changeSupply .low s1
    | .normal => s1
    | .low => s1
    | .recovering => s1
  else s

/-- RISE_ABOVE_CRIT_BAND (R115, R116, R124). SENSE stands at `sense` at the event. -/
def execRiseAboveCritBand (sense : Nat) (s : State) : Host.Outcome State Fault Refusal :=
  .next (riseAboveCritBand { s with sense := sense })

/-- RISE_ABOVE_WARN_BAND (R114, R115): from LOW and from COLLAPSE to RECOVERING, the holdoff started. -/
def riseAboveWarnBand (s : State) : State :=
  if s.supply.active ∧ s.supply.warnOut = .below ∧ s.part.warn + s.part.band < s.sense then
    let s1 := { s with supply := { s.supply with warnOut := .above } }
    match s.supply.state with
    | .low => changeSupply .recovering s1
    | .collapse => changeSupply .recovering s1
    | .normal => s1
    | .recovering => s1
  else s

/-- RISE_ABOVE_WARN_BAND (R115, R116, R117). SENSE stands at `sense` at the event. -/
def execRiseAboveWarnBand (sense : Nat) (s : State) : Host.Outcome State Fault Refusal :=
  .next (riseAboveWarnBand { s with sense := sense })

/-- HOLDOFF_EXPIRY (R117): a holdoff that has run its full length in RECOVERING takes the monitor to NORMAL. -/
def holdoffExpiry (s : State) : State :=
  if s.supply.active ∧ s.supply.state = .recovering ∧ s.supply.holdoff.expired then changeSupply .normal s else s

/-- HOLDOFF_EXPIRY (R117, R121). -/
def execHoldoffExpiry (s : State) : Host.Outcome State Fault Refusal := .next (holdoffExpiry s)

end Sys2Proof.Machine
end

