-- ==== Sys2Proof/Machine/Timebase.lean ====
section
/-! DEFINITION. The millisecond tick (R158), from which the counter counts and every timer runs. -/

namespace Sys2Proof.Machine

/-- Every running timer one millisecond on (R22, R117, R136; log 3). -/
def State.tickTimers (s : State) : State :=
  let s1 := s.modRails fun _ x => { x with timer := x.timer.tick }
  let s2 := allLinks.foldl (fun t l => t.modSession l fun x => { x with leaseTimer := x.leaseTimer.tick }) s1
  { s2 with supply := { s2.supply with holdoff := s2.supply.holdoff.tick } }

/-- TIMESTAMP_TICK (R158): the counter rises by 1, wrapping from 65535 to 0. -/
def execTimestampTick (s : State) : Host.Outcome State Fault Refusal :=
  .next { s.tickTimers with timestamp := s.timestamp + 1 }

end Sys2Proof.Machine
end

