-- ==== Sys2Proof/Machine/Dispatch.lean ====
section
/-! DEFINITION. What each command does: one arm for each constructor of Instr. -/

namespace Sys2Proof.Machine

def exec (i : Instr) (s : State) : Host.Outcome State Fault Refusal :=
  match i with
  | .attach l f => Sys2Proof.Machine.execAttach l f s
  | .detach l f => Sys2Proof.Machine.execDetach l f s
  | .renew l f => Sys2Proof.Machine.execRenew l f s
  | .claim l f => Sys2Proof.Machine.execClaim l f s
  | .releaseWithoutWait l f => Sys2Proof.Machine.execReleaseWithoutWait l f s
  | .releaseWithWait l f => Sys2Proof.Machine.execReleaseWithWait l f s
  | .clearFault l f => Sys2Proof.Machine.execClearFault l f s
  | .fetchEvent l f => Sys2Proof.Machine.execFetchEvent l f s
  | .queryRail l f => Sys2Proof.Machine.execQueryRail l f s
  | .queryPart l f => Sys2Proof.Machine.execQueryPart l f s
  | .writeRail l f => Sys2Proof.Machine.execWriteRail l f s
  | .writePart l f => Sys2Proof.Machine.execWritePart l f s
  | .readRail l f => Sys2Proof.Machine.execReadRail l f s
  | .readPart l f => Sys2Proof.Machine.execReadPart l f s
  | .commit l f sense => Sys2Proof.Machine.execCommit l f sense s
  | .frameDiscard l => Sys2Proof.Machine.execFrameDiscard l s
  | .pgChangeTaken r level => Sys2Proof.Machine.execPgChangeTaken r level s
  | .rampTimeExpiry r => Sys2Proof.Machine.execRampTimeExpiry r s
  | .slewTimeExpiry r => Sys2Proof.Machine.execSlewTimeExpiry r s
  | .drainTimeExpiry r => Sys2Proof.Machine.execDrainTimeExpiry r s
  | .deferredOff r => Sys2Proof.Machine.execDeferredOff r s
  | .startGrant r => Sys2Proof.Machine.execStartGrant r s
  | .raiseGrant r => Sys2Proof.Machine.execRaiseGrant r s
  | .holdoffExpiry => Sys2Proof.Machine.execHoldoffExpiry s
  | .leaseExpiry l => Sys2Proof.Machine.execLeaseExpiry l s
  | .fallBelowWarn sense => Sys2Proof.Machine.execFallBelowWarn sense s
  | .fallBelowCrit sense => Sys2Proof.Machine.execFallBelowCrit sense s
  | .riseAboveCritBand sense => Sys2Proof.Machine.execRiseAboveCritBand sense s
  | .riseAboveWarnBand sense => Sys2Proof.Machine.execRiseAboveWarnBand sense s
  | .linkReset l => Sys2Proof.Machine.execLinkReset l s
  | .linkResetRelease l => Sys2Proof.Machine.execLinkResetRelease l s
  | .warmReset sense => Sys2Proof.Machine.execWarmReset sense s
  | .warmResetRelease => Sys2Proof.Machine.execWarmResetRelease s
  | .powerOnReset => Sys2Proof.Machine.execPowerOnReset s
  | .timestampTick => Sys2Proof.Machine.execTimestampTick s
  | .csnFall l => Sys2Proof.Machine.execCsnFall l s
  | .responseEnd l => Sys2Proof.Machine.execResponseEnd l s
  | .csnRise l => Sys2Proof.Machine.execCsnRise l s

end Sys2Proof.Machine
end

