-- ==== Sys2Proof/Safety.lean ====
section
/-! DEFINITION. What counts as a sound state of the part, what the parts of one event may write, and the words the statements use for requests and their answers. -/

namespace Sys2Proof.Machine

/-! ### The configuration table (R1) -/

/-- What the writes and COMMIT keep of the table: each record carries as many costs as its level count says, and a
committed table passes every check of COMMIT (R1, R165, R168). -/
structure TableSound (s : State) : Prop where
  costs : ∀ r : Rail, (s.record r).costs.length = (s.record r).levelCount.toNat
  passes : s.lifecycle = .committed → commitFault s = none

/-! ### One rail (R18 to R22, R47, R73) -/

/-- The output lines are those of the rail's state and level (R19, R20). -/
def LinesFollow (s : State) : Prop :=
  ∀ r : Rail, (s.rail r).en = enLine (s.rail r).state ∧ (s.rail r).lvl = lvlCode r (s.rail r).level

/-- The fields of a runtime record that its state decides (R18, R22, R43, R47). -/
structure RecordShape (x : RailRuntime) : Prop where
  unpowered : x.state = .off ∨ x.state = .waiting ∨ x.state = .fault → x.level = 0 ∧ x.held = 0
  timerRuns : x.timer ≠ .stopped ↔
    x.state = .ramping ∨ x.state = .slewing ∨ (x.state = .draining ∧ x.drainFinished = false)
  origin : x.slewOrigin.isSome ↔ x.state = .slewing
  finished : x.drainFinished = true → x.state = .draining
  latch : x.faultLatch = true ↔ x.state = .fault
  kind : x.state = .fault → x.faultKind ≠ none
  count : x.faultCount ≤ Config.faultCountMax

/-- Every runtime record has the shape of its state. -/
def RecordsShaped (s : State) : Prop := ∀ r : Rail, RecordShape (s.rail r)

/-- The budget a rail holds in its state (R73): the cost of its level in RAMPING, ON and DRAINING; the larger of the costs
of its level and of its slew origin in SLEWING; 0 in OFF, WAITING and FAULT. -/
def State.heldByRule (s : State) (r : Rail) : Nat :=
  let x := s.rail r
  match x.state with
  | .off => 0
  | .waiting => 0
  | .ramping => (s.record r).costOf x.level
  | .on => (s.record r).costOf x.level
  | .slewing => max ((s.record r).costOf x.level) ((s.record r).costOf (x.slewOrigin.getD 0))
  | .draining => (s.record r).costOf x.level
  | .fault => 0

/-- Every rail holds the budget its state asks for (R72, R73). -/
def HeldFollows (s : State) : Prop := ∀ r : Rail, (s.rail r).held = s.heldByRule r

/-- Claims, levels and targets lie within the rail's level count, and an absent rail has no claim (R3, R51, R53). -/
def LevelsBounded (s : State) : Prop :=
  ∀ r : Rail,
    (s.rail r).level ≤ (s.record r).levelCount.toNat ∧ (s.rail r).target ≤ (s.record r).levelCount.toNat
      ∧ ((s.rail r).slewOrigin.getD 0) ≤ (s.record r).levelCount.toNat
      ∧ (∀ l : Link, s.claim l r ≤ (s.record r).levelCount.toNat)
      ∧ ((s.record r).defined = false → (s.rail r).state = .off ∧ ∀ l : Link, s.claim l r = 0)

/-! ### The graph (R45, R56) -/

/-- A rail's hold set is the set of its children in WAITING, RAMPING, ON, SLEWING or DRAINING (R56). -/
def HoldsExact (s : State) : Prop :=
  ∀ p c : Rail, (s.rail p).holdSet.get c = (s.isParent p c && (s.rail c).state.holding)

/-- A rail in RAMPING, ON or SLEWING has every parent in ON or SLEWING (R45). -/
def ParentsUp (s : State) : Prop :=
  ∀ r : Rail, (s.rail r).state.running = true → ∀ p ∈ s.parentsOf r, (s.rail p).state.up = true

/-! ### Targets (R33, R53, R54) -/

/-- Every target is the one its inputs give, and every rail has acted on it as far as its state lets it (R26, R27, R31, R33,
R37, R43, R54). -/
structure Settled (s : State) : Prop where
  target : ∀ r : Rail, (s.rail r).target = s.targetFor r
  off : ∀ r : Rail, (s.rail r).state = .off → (s.rail r).target = 0
  waiting : ∀ r : Rail, (s.rail r).state = .waiting → (s.rail r).target ≠ 0
  ramping : ∀ r : Rail, (s.rail r).state = .ramping → (s.rail r).target ≠ 0
  on : ∀ r : Rail, (s.rail r).state = .on → (s.rail r).level ≤ (s.rail r).target
  finished : ∀ r : Rail, (s.rail r).drainFinished = true → s.heldByDraining r = true
  level : ∀ r : Rail, (s.rail r).state.running = true ∨ (s.rail r).state = .draining → 1 ≤ (s.rail r).level

/-! ### The budget arbiter (R72, R79, R83) -/

/-- The sum of the budget held by the sixteen rails (R72). -/
def State.heldTotal (s : State) : Nat := (allRails.map fun r => (s.rail r).held).sum

/-- Allocated is the sum of the budget held (R72). -/
def BudgetBalanced (s : State) : Prop := s.allocated = s.heldTotal

/-- In a committed part neither the limit nor allocated is above budget full (R72, R74, R168). -/
def BudgetWithin (s : State) : Prop :=
  s.lifecycle = .committed →
    s.part.budgetLow ≤ s.part.budgetFull ∧ s.limit ≤ s.part.budgetFull.toNat ∧ s.allocated ≤ s.part.budgetFull.toNat

/-- The budget wait queue: one entry for each rail that asks, with the kind and amount it asks for and its priority; in
order of priority (R79, R80, R81). -/
structure QueueKept (s : State) : Prop where
  entry : ∀ q ∈ s.budgetQueue, s.requestOf q.rail = some (q.kind, q.amount) ∧ q.priority = (s.record q.rail).priority
  once : (s.budgetQueue.map QueueEntry.rail).Nodup
  every : ∀ r : Rail, s.requestOf r ≠ none → s.queued r = true
  order : s.budgetQueue.Pairwise fun a b => b.priority ≤ a.priority

/-- The head of the queue does not fit: its amount is not 0, and allocated plus it is above the limit (R6, R81, R83). -/
def HeadWaits (s : State) : Prop :=
  ∀ q ∈ s.budgetQueue.head?, 0 < q.amount ∧ s.limit < s.allocated + q.amount

/-- The budget wait queue as it stands between events: kept, with a head that does not fit (R79 to R83). -/
structure QueueExact (s : State) : Prop extends QueueKept s where
  head : HeadWaits s

/-! ### The supply monitor (R74, R113, R119, R123) -/

/-- The monitor of a committed part: the limit, the holdoff and the suspended flags go with its state, and nothing runs in
COLLAPSE. -/
structure SupplySound (s : State) : Prop where
  active : s.supply.active = true ↔ s.lifecycle = .committed
  limit : s.lifecycle = .committed → s.limit = s.part.limitIn s.supply.state
  holdoff : s.supply.holdoff ≠ .stopped ↔ s.supply.state = .recovering
  flagged : ∀ r : Rail, (s.rail r).suspended = true → (s.record r).defined = true ∧ (s.record r).shedClass = .shed
  set : s.supply.state = .low ∨ s.supply.state = .recovering →
    ∀ r : Rail, (s.record r).defined = true → (s.record r).shedClass = .shed → (s.rail r).suspended = true
  clear : s.supply.state = .normal → ∀ r : Rail, (s.rail r).suspended = false
  collapse : s.supply.state = .collapse → ∀ r : Rail, (s.rail r).state.running = false

/-! ### Sessions (R129, R136, R141, R149, R161) -/

/-- A session's record: its room, ALERTn and lost-notice count; what is empty while it is not ATTACHED; and a lease that
runs while it is. -/
structure SessionShape (x : Session) : Prop where
  room : x.roomUsed ≤ Config.sessionRoom
  lost : x.lost ≤ Config.lostMax
  alert : x.alertn = .low ↔ x.queue ≠ []
  detached : x.state ≠ .attached →
    x.leaseTimer = .stopped ∧ x.mask = .empty ∧ (∀ r : Rail, x.table.get r = none) ∧ x.queue = [] ∧ x.lost = 0
  attached : x.state = .attached → ∃ ms, x.leaseTimer = .running ms ∧ ms ≤ x.leaseLength.toNat * Config.leaseUnit

/-- Every session has its shape, and one that is not ATTACHED has no claim on any rail (R141). -/
def SessionsSound (s : State) : Prop :=
  ∀ l : Link, SessionShape (s.session l) ∧ ((s.session l).state ≠ .attached → ∀ r : Rail, s.claim l r = 0)

/-- What an outstanding completion says of its rail (R62, R67, R99, R151, R153). -/
def OutstandingFits (s : State) : Prop :=
  ∀ (l : Link) (r : Rail),
    match s.outstanding l r with
    | none => True
    | some ⟨.claimWait level, _⟩ =>
      1 ≤ level ∧ s.claim l r = level ∧ (s.rail r).state ≠ .fault ∧ ((s.rail r).state = .on → (s.rail r).level < level)
    | some ⟨.offWait, _⟩ =>
      s.claim l r = 0 ∧ ((s.rail r).state = .draining ∨ ((s.rail r).state = .slewing ∧ (s.rail r).target = 0))

/-! ### Before COMMIT (R49, R89, R126, R163) -/

/-- The runtime values of a part that is UNCOMMITTED. -/
def IdleBeforeCommit (s : State) : Prop :=
  s.lifecycle = .uncommitted →
    (∀ r : Rail, s.rail r = (s.rail r).activated) ∧ s.allocated = 0 ∧ s.limit = 0 ∧ s.budgetQueue = []
      ∧ s.supply = .powerOn ∧ ∀ l : Link, (∀ r : Rail, s.outstanding l r = none) ∧ (s.session l).queue = []

/-- A state of the part in which all of this holds, but that the head of its queue may fit: a grant may be due in it. -/
structure Sound (s : State) : Prop where
  table : TableSound s
  lines : LinesFollow s
  shape : RecordsShaped s
  held : HeldFollows s
  levels : LevelsBounded s
  holds : HoldsExact s
  parents : ParentsUp s
  settled : Settled s
  balanced : BudgetBalanced s
  within : BudgetWithin s
  kept : QueueKept s
  supply : SupplySound s
  sessions : SessionsSound s
  outstanding : OutstandingFits s
  idle : IdleBeforeCommit s

/-- A state of the part as it stands between events. Every state that runs reach is one (the statements of
Sys2Proof/Certificates/Slice0/Obligations.lean say so of reset and of every step). -/
structure Coherent (s : State) : Prop extends Sound s where
  head : HeadWaits s

/-! ### What the rails, the arbiter and the sessions may write at one event -/

/-- From `s` to `t`, no more than the rail controllers, the budget arbiter and the sessions write as they act on an event:
not the table, the lifecycle, the supply state, the limit, the links, the counter, a pin or a waiting command; not a claim, a
suspended flag, a filtered PG or a lease; of a session that is not ATTACHED nothing; an event queue only grows at its tail; a
completion only leaves its table; a rail in FAULT stays there with its fault; the fault fields of a rail change at an entry
into FAULT alone, and its drain cause at an entry into DRAINING alone (R18, R48, R51, R97, R138, R148). -/
structure Reaction (s t : State) : Prop where
  rest : t =
    { s with rails := t.rails, sessions := t.sessions, allocated := t.allocated, budgetQueue := t.budgetQueue }
  claims : ∀ r : Rail, (t.rail r).claims = (s.rail r).claims
  suspended : ∀ r : Rail, (t.rail r).suspended = (s.rail r).suspended
  pg : ∀ r : Rail, (t.rail r).pg = (s.rail r).pg
  faulted : ∀ r : Rail, (s.rail r).state = .fault →
    t.rail r = { s.rail r with target := (t.rail r).target, holdSet := (t.rail r).holdSet }
  fault : ∀ r : Rail,
    ((t.rail r).faultLatch = (s.rail r).faultLatch ∧ (t.rail r).faultKind = (s.rail r).faultKind
        ∧ (t.rail r).faultCount = (s.rail r).faultCount)
      ∨ ((t.rail r).state = .fault ∧ (t.rail r).faultLatch = true ∧ (t.rail r).faultKind ≠ none
        ∧ (t.rail r).faultCount = min ((s.rail r).faultCount + 1) Config.faultCountMax)
  cause : ∀ r : Rail, (t.rail r).drainCause = (s.rail r).drainCause ∨ (t.rail r).state = .draining
  session : ∀ l : Link, t.session l =
    { s.session l with
      table := (t.session l).table
      queue := (t.session l).queue
      lost := (t.session l).lost
      alertn := (t.session l).alertn }
  unattached : ∀ l : Link, (s.session l).state ≠ .attached → t.session l = s.session l
  grows : ∀ l : Link, (s.session l).queue <+: (t.session l).queue
  leaves : ∀ (l : Link) (r : Rail), t.outstanding l r = none ∨ t.outstanding l r = s.outstanding l r

/-! ### The cascade (R101, R102) -/

/-- The rails that the cascade of an entry into FAULT of rail `r` forces down, from the states before it: the running
children of the rail, and the running children of every rail it forces. -/
inductive Forced (s : State) (r : Rail) : Rail → Prop where
  | direct (c : Rail) : s.isParent r c = true → c ≠ r → (s.rail c).state.running = true → Forced s r c
  | onward (p c : Rail) : Forced s r p → s.isParent p c = true → c ≠ r → (s.rail c).state.running = true → Forced s r c

/-! ### The parent graph (R7, R170) -/

/-- Rail `a` stands above rail `b`: it is reached from it by following parent lists of defined rails one or more times. -/
inductive Above (s : State) : Rail → Rail → Prop where
  | parent (a b : Rail) : (s.record b).defined = true → s.isParent a b = true → Above s a b
  | step (a b c : Rail) : Above s a b → (s.record c).defined = true → s.isParent b c = true → Above s a c

end Sys2Proof.Machine

/-! ### Requests and their answers (R178 to R183) -/

namespace Sys2Proof

open Machine in
/-- The request that a command is, with its link and its frame; none for the other commands. -/
def Instr.request? : Instr → Option (Kind × Link × Frame)
  | .attach l f => some (.attach, l, f)
  | .detach l f => some (.detach, l, f)
  | .renew l f => some (.renew, l, f)
  | .claim l f => some (.claim, l, f)
  | .releaseWithoutWait l f => some (.release, l, f)
  | .releaseWithWait l f => some (.release, l, f)
  | .clearFault l f => some (.clearFault, l, f)
  | .fetchEvent l f => some (.fetchEvent, l, f)
  | .queryRail l f => some (.queryRail, l, f)
  | .queryPart l f => some (.queryPart, l, f)
  | .writeRail l f => some (.writeRail, l, f)
  | .writePart l f => some (.writePart, l, f)
  | .readRail l f => some (.readRail, l, f)
  | .readPart l f => some (.readPart, l, f)
  | .commit l f _ => some (.commit, l, f)
  | .frameDiscard _ => none
  | .pgChangeTaken _ _ => none
  | .rampTimeExpiry _ => none
  | .slewTimeExpiry _ => none
  | .drainTimeExpiry _ => none
  | .deferredOff _ => none
  | .startGrant _ => none
  | .raiseGrant _ => none
  | .holdoffExpiry => none
  | .leaseExpiry _ => none
  | .fallBelowWarn _ => none
  | .fallBelowCrit _ => none
  | .riseAboveCritBand _ => none
  | .riseAboveWarnBand _ => none
  | .linkReset _ => none
  | .linkResetRelease _ => none
  | .warmReset _ => none
  | .warmResetRelease => none
  | .powerOnReset => none
  | .timestampTick => none
  | .csnFall _ => none
  | .responseEnd _ => none
  | .csnRise _ => none

end Sys2Proof

namespace Sys2Proof.Machine

/-- A request frame of kind `k` on link `l` passes the common checks 1 to 4 of R182 in state `s`: the receiver is taking a
request, the frame is good, and the session state and the lifecycle allow the kind. -/
structure Passes (s : State) (k : Kind) (l : Link) (f : Frame) : Prop where
  receiver : (s.link l).receiver = .request
  frame : frameRefusal k f = none
  session : sessionRefusal k (s.session l).state = none
  lifecycle : lifecycleRefusal k s.lifecycle = none

/-- From `s` to `t`, link `l` has been handed the response of status `st`, the frame's tag and `data`, and no other link has
changed (R178, R181). -/
def Answered (s t : State) (l : Link) (st : Status) (f : Frame) (data : List Byte) : Prop :=
  t.links = s.links.set l.val { s.link l with receiver := .response (responseFrame st f.tag data) } l.isLt

/-- The frame's rail byte names rail `r`, and the table defines it (R61, R65, R107). -/
def Names (s : State) (f : Frame) (r : Rail) : Prop :=
  (argByte f 0).toNat = r.val ∧ (s.record r).defined = true

/-- The sessions with the lease of session `l` restarted for its full length, 100 ms for each unit (R131, R136). -/
def State.leaseRestarted (s : State) (l : Link) : Vector Session 4 :=
  s.sessions.set l.val
    { s.session l with leaseTimer := .running ((s.session l).leaseLength.toNat * 100) } l.isLt

/-- A session that has been torn down to state `st` (R141, steps 1 to 6). -/
def Session.gone (x : Session) (st : SessionState) : Session :=
  { x with
    state := st
    leaseTimer := .stopped
    mask := .empty
    table := .replicate 16 none
    queue := []
    lost := 0
    alertn := .high }

/-- The state with session `l` torn down to `st` and its entry in every claim vector 0 (R141). -/
def State.without (s : State) (l : Link) (st : SessionState) : State :=
  { s with
    sessions := s.sessions.set l.val ((s.session l).gone st) l.isLt
    rails := s.rails.map fun x => { x with claims := x.claims.set l.val 0 l.isLt } }

/-- From `s` to `t`, what a request of session `l` writes beside its own session and its link is a reaction of the rails, the
arbiter and the other sessions. -/
def ReactionBeside (l : Link) (s t : State) : Prop :=
  Reaction s { t with links := s.links, sessions := t.sessions.set l.val (s.session l) l.isLt }

/-- From `s` to `t`, of the session `l` whose request is served no more is written than its lease timer, restarted for its full
length, its completion table, its event queue, its lost-notice count and ALERTn. -/
def ServedSession (l : Link) (s t : State) : Prop :=
  t.session l =
    { s.session l with
      leaseTimer := .running ((s.session l).leaseLength.toNat * 100)
      table := (t.session l).table
      queue := (t.session l).queue
      lost := (t.session l).lost
      alertn := (t.session l).alertn }

/-! ### When an event is due -/

/-- A command that finds a fault of kind `k` at rail `r` (R93 to R96). -/
inductive Finds (s : State) : Instr → Rail → FaultKind → Prop where
  | rampTimeout (r : Rail) : (s.rail r).state = .ramping → (s.rail r).timer = .running 0 → s.monitored r = true →
      Finds s (.rampTimeExpiry r) r .rampTimeout
  | pgLost (r : Rail) : (s.rail r).state = .on → (s.rail r).pg = .high → s.lifecycle = .committed →
      s.monitored r = true → Finds s (.pgChangeTaken r .low) r .pgLost
  | slewFail (r : Rail) : (s.rail r).state = .slewing → (s.rail r).timer = .running 0 → s.monitored r = true →
      (s.rail r).pg = .low → Finds s (.slewTimeExpiry r) r .slewFail
  | drainStuck (r : Rail) : (s.rail r).state = .draining → (s.rail r).timer = .running 0 → s.monitored r = true →
      (s.rail r).pg = .high → Finds s (.drainTimeExpiry r) r .drainStuck

/-- A command that brings rail `r` to ON, at the end of a ramp or of a slew (R29, R30, R40). -/
inductive Reaches (s : State) : Instr → Rail → Prop where
  | pgGood (r : Rail) : (s.rail r).state = .ramping → (s.rail r).pg = .low → s.lifecycle = .committed →
      s.monitored r = true → Reaches s (.pgChangeTaken r .high) r
  | ramped (r : Rail) : (s.rail r).state = .ramping → (s.rail r).timer = .running 0 → s.monitored r = false →
      Reaches s (.rampTimeExpiry r) r
  | slewed (r : Rail) : (s.rail r).state = .slewing → (s.rail r).timer = .running 0 →
      s.monitored r = false ∨ (s.rail r).pg = .high → Reaches s (.slewTimeExpiry r) r

/-- A comparator event that the monitor takes, with the comparator outputs after it (R114): the output has not crossed yet and
SENSE is past the point. -/
inductive Crosses (s : State) : Instr → Side → Side → Prop where
  | fallWarn (v : Nat) : s.supply.active = true → s.supply.warnOut = .above → v < s.part.warn →
      Crosses s (.fallBelowWarn v) .below s.supply.critOut
  | fallCrit (v : Nat) : s.supply.active = true → s.supply.critOut = .above → v < s.part.crit →
      Crosses s (.fallBelowCrit v) s.supply.warnOut .below
  | riseCrit (v : Nat) : s.supply.active = true → s.supply.critOut = .below → s.part.crit + s.part.band < v →
      Crosses s (.riseAboveCritBand v) s.supply.warnOut .above
  | riseWarn (v : Nat) : s.supply.active = true → s.supply.warnOut = .below → s.part.warn + s.part.band < v →
      Crosses s (.riseAboveWarnBand v) .above s.supply.critOut

/-- The supply state that a comparator event leads to, by the state in which it is taken (the table of R115). -/
def supplyAfter : Instr → SupplyState → SupplyState
  | .fallBelowWarn _, .normal => .low
  | .fallBelowWarn _, .recovering => .low
  | .fallBelowCrit _, _ => .collapse
  | .riseAboveCritBand _, .collapse => .low
  | .riseAboveWarnBand _, .low => .recovering
  | .riseAboveWarnBand _, .collapse => .recovering
  | _, st => st

/-- The SENSE level that a comparator event carries. -/
def senseOf : Instr → Option Nat
  | .fallBelowWarn v => some v
  | .fallBelowCrit v => some v
  | .riseAboveCritBand v => some v
  | .riseAboveWarnBand v => some v
  | _ => none

/-- The suspended flag of rail `r` after the supply state has gone from `old` to `new` (R119). -/
def State.flagAfter (s : State) (old new : SupplyState) (r : Rail) : Bool :=
  if (s.record r).defined ∧ (s.record r).shedClass = .shed then
    if new = .normal then false
    else if (new = .low ∧ (old = .normal ∨ old = .collapse)) ∨ (new = .recovering ∧ old = .collapse) then true
    else (s.rail r).suspended
  else (s.rail r).suspended

/-- The state with the supply monitor, the limit and the suspended flags as a change of supply state to `m` leaves them
(R74, R118, R119). -/
def State.supplied (s : State) (m : SupplyMonitor) : State :=
  { s with
    supply := m
    limit := s.part.limitIn m.state
    rails := Vector.ofFn fun r => { s.rail r with suspended := s.flagAfter s.supply.state m.state r } }

/-- The notices that a change of the supply state to `new`, from `s` to `t`, offers session `l`, in the order of R125:
SUPPLY_CHANGE, then SUSPENDED or RESUMED for each rail claimed by the session whose flag changes, in ascending rail number,
with the level that the rail has after the event (R122). -/
def supplyNotices (s t : State) (l : Link) (new : SupplyState) : List EventRecord :=
  let flag := s.flagAfter s.supply.state new
  let changed := allRails.filter fun r => s.claim l r != 0 && flag r != (s.rail r).suspended
  (if (s.session l).mask.supplyChange then [⟨.supplyChange, none, none, 0, .supply new, s.timestamp⟩] else [])
    ++ if (s.session l).mask.suspendResume then
        changed.map fun r =>
          ⟨if flag r then .suspended else .resumed, some r, none, (t.rail r).level, .supply new, s.timestamp⟩
      else []

/-- From `s` to `t`, session `l`, where it is ATTACHED, has been offered the notices `ns` in their order: the first of them
that its room allows follow what its queue held (R150). -/
def Offered (s t : State) (l : Link) (ns : List EventRecord) : Prop :=
  (s.session l).state = .attached →
    (s.session l).queue ++ ns.take (24 - (s.session l).roomUsed) <+: (t.session l).queue

/-- The register of the CRC after one more bit (R180): the bit added to the top of the register, a shift, and the polynomial
added where the sum was 1. -/
def crcBit (c : Byte) (b : Bool) : Byte := if (c.msb != b) then (c <<< 1) ^^^ 0x1D else c <<< 1

/-- The bits of a byte, most significant first. -/
def bitsOf (b : Byte) : List Bool := [7, 6, 5, 4, 3, 2, 1, 0].map b.getLsbD

end Sys2Proof.Machine
end

