-- ==== Sys2Proof/Certificates/Slice0/Obligations.lean ====
section
/-! DEFINITION. The statements for the provers. Each docstring names the rules of spec/ it formalises, or the log entry whose choice it states. -/

section

open Sys2Proof Sys2Proof.Machine

/-! ### The step and reset -/

/-- A step runs the command at the front of the queue on the state with the queue's rest. On an empty queue the part idles,
which is the model's choice (log 2). -/
def Obligations.StepRunsTheFrontCommand : Prop :=
  (∀ (c : Instr) (rest : List Instr) (s : State), s.pending = c :: rest →
      step s = exec c { s with pending := rest })
    ∧ ∀ s : State, s.pending = [] → step s = .next s

/-- Every command answers a next state, and none of them touches the waiting commands: nothing stops the part. (The queue of
waiting commands is the model's own field, log 2; that a command which is not due answers a next state at all is the model's
reading, log 3, 5, 6, 7, 8, 10.) -/
def Obligations.EveryCommandCompletes : Prop :=
  ∀ (c : Instr) (s : State), ∃ t, exec c s = .next t ∧ t.pending = s.pending

/-- The values of power-on reset: R2, R49, R89, R126, R143, R158, R162, R163, R178. (The levels of the input lines and of SENSE
are the model's choice, log 1, and are not stated here.) -/
def Obligations.ResetTakesPowerOnValues : Prop :=
  let s := State.reset
  s.lifecycle = .uncommitted ∧ s.allocated = 0 ∧ s.limit = 0 ∧ s.budgetQueue = [] ∧ s.timestamp = 0
    ∧ s.part.budgetFull = 0 ∧ s.part.budgetLow = 0 ∧ s.part.warnCode = 0 ∧ s.part.critCode = 0
    ∧ s.part.hysteresisCode = 0 ∧ s.part.holdoffCode = 0
    ∧ (∀ r : Rail,
        (s.record r).defined = false ∧ (s.record r).levelCount = 0 ∧ (s.record r).costs = [] ∧ (s.record r).parents = []
          ∧ (s.record r).pgMode = .monitored ∧ (s.record r).rampTime = 0 ∧ (s.record r).slewTime = 0
          ∧ (s.record r).drainTime = 0 ∧ (s.record r).shedClass = .keep ∧ (s.record r).priority = 0
          ∧ (s.record r).retryLimit = 0)
    ∧ (∀ r : Rail,
        (s.rail r).state = .off ∧ (s.rail r).level = 0 ∧ (s.rail r).target = 0 ∧ (∀ l : Link, s.claim l r = 0)
          ∧ (∀ c : Rail, (s.rail r).holdSet.get c = false) ∧ (s.rail r).suspended = false
          ∧ (s.rail r).timer = .stopped ∧ (s.rail r).slewOrigin = none ∧ (s.rail r).drainFinished = false
          ∧ (s.rail r).drainCause = .normal ∧ (s.rail r).faultLatch = false ∧ (s.rail r).faultKind = none
          ∧ (s.rail r).faultCount = 0 ∧ (s.rail r).held = 0 ∧ (s.rail r).pg = .low ∧ (s.rail r).en = .low
          ∧ (s.rail r).lvl = 0)
    ∧ s.supply.active = false ∧ s.reportedSupply = .normal ∧ s.supply.warnOut = .above ∧ s.supply.critOut = .above
    ∧ s.supply.holdoff = .stopped
    ∧ ∀ l : Link,
        (s.session l).state = .detached ∧ (s.session l).leaseLength = 0 ∧ (s.session l).leaseTimer = .stopped
          ∧ (s.session l).mask = .empty ∧ (∀ r : Rail, s.outstanding l r = none) ∧ (s.session l).queue = []
          ∧ (s.session l).lost = 0 ∧ (s.session l).alertn = .high ∧ (s.link l).receiver = .idle

/-- The state after reset is coherent. -/
def Obligations.ResetIsCoherent : Prop := Coherent State.reset

/-! ### What every step keeps -/

/-- Every step keeps a coherent state coherent: the table, the lines, the budget, the holds, readiness, the queue, the supply
monitor and the sessions stay as the rules of `Coherent` say. -/
def Obligations.StepsKeepCoherence : Prop :=
  ∀ s t : State, Coherent s → step s = .next t → Coherent t

/-- R19, R20: EN is HIGH exactly in RAMPING, ON and SLEWING, and the LVL lines carry the level's code, after every step. -/
def Obligations.StepsKeepLines : Prop :=
  ∀ s t : State, LinesFollow s → step s = .next t → LinesFollow t

/-- R72: allocated stays the sum of the budget held by the sixteen rails. -/
def Obligations.StepsKeepBudgetBalanced : Prop :=
  ∀ s t : State, BudgetBalanced s → step s = .next t → BudgetBalanced t

/-- R72, R74: in a committed part neither allocated nor the limit comes to stand above budget full. -/
def Obligations.StepsKeepBudgetWithin : Prop :=
  ∀ s t : State, BudgetWithin s → step s = .next t → BudgetWithin t

/-- R18, R22, R43, R47: the level, budget, timer, slew origin, drain-finished mark and fault latch that go with each state. -/
def Obligations.StepsKeepRecordsShaped : Prop :=
  ∀ s t : State, RecordsShaped s → step s = .next t → RecordsShaped t

/-- R129, R136, R138, R141, R148, R149, R150, R161: the room of a session, its ALERTn line, its lease, and what a session that is
not ATTACHED has given up. -/
def Obligations.StepsKeepSessionsSound : Prop :=
  ∀ s t : State, SessionsSound s → step s = .next t → SessionsSound t

/-- R56: the hold sets stay the sets of holding children. Before COMMIT, when the parent lists may be written, no rail is out of
OFF. -/
def Obligations.StepsKeepHoldsExact : Prop :=
  ∀ s t : State, HoldsExact s → IdleBeforeCommit s → step s = .next t → HoldsExact t ∧ IdleBeforeCommit t

/-- R79, R80, R81, R83: the queue holds exactly the requests in being, in order of priority, and its head does not fit (its amount is
above 0, which always fits, log 27). -/
def Obligations.StepsKeepQueueExact : Prop :=
  ∀ s t : State, QueueExact s → IdleBeforeCommit s → step s = .next t → QueueExact t ∧ IdleBeforeCommit t

/-! ### What a command can change at all -/

/-- R1, R163, R165, R166, R172: the table is written by WRITE_RAIL and WRITE_PART while UNCOMMITTED alone, the lifecycle goes from
UNCOMMITTED to COMMITTED by COMMIT alone, and only power-on reset undoes either. -/
def Obligations.TableIsWrittenByWritesAlone : Prop :=
  ∀ (c : Instr) (s t : State), exec c s = .next t →
    (t.records = s.records ∨ (s.lifecycle = .uncommitted ∧ ∃ l f, c = .writeRail l f) ∨ c = .powerOnReset)
      ∧ (t.part = s.part ∨ (s.lifecycle = .uncommitted ∧ ∃ l f, c = .writePart l f) ∨ c = .powerOnReset)
      ∧ (t.lifecycle = s.lifecycle
        ∨ (s.lifecycle = .uncommitted ∧ t.lifecycle = .committed ∧ ∃ l f v, c = .commit l f v) ∨ c = .powerOnReset)

/-- R51: the claim entry of session `l` on a rail is written by that session's CLAIM or RELEASE naming the rail, and becomes 0 by
its teardown, a reset or the COMMIT that is accepted; by nothing else. -/
def Obligations.ClaimsAreWrittenByTheirSession : Prop :=
  ∀ (c : Instr) (s t : State) (l : Link) (r : Rail), exec c s = .next t →
    t.claim l r = s.claim l r
      ∨ (∃ f, (c = .claim l f ∨ c = .releaseWithoutWait l f ∨ c = .releaseWithWait l f) ∧ (argByte f 0).toNat = r.val)
      ∨ (t.claim l r = 0
        ∧ ((∃ f, c = .detach l f) ∨ c = .leaseExpiry l ∨ c = .linkReset l ∨ (∃ v, c = .warmReset v)
          ∨ c = .powerOnReset ∨ ∃ m f v, c = .commit m f v))

/-- R48, R97, R106: a rail in FAULT stays there with its kind, count and latch until a CLEAR_FAULT by a session with a claim on it,
a warm reset or a power-on reset. (Before COMMIT no rail is in FAULT, so the accepted COMMIT, which sets every rail to OFF, is
named for states that no run reaches.) -/
def Obligations.FaultIsLeftByClearOrReset : Prop :=
  ∀ (c : Instr) (s t : State) (r : Rail), exec c s = .next t → (s.rail r).state = .fault →
    ((t.rail r).state = .fault ∧ (t.rail r).faultKind = (s.rail r).faultKind
        ∧ (t.rail r).faultCount = (s.rail r).faultCount ∧ (t.rail r).faultLatch = (s.rail r).faultLatch)
      ∨ (∃ l f, c = .clearFault l f ∧ (argByte f 0).toNat = r.val ∧ s.claim l r ≠ 0 ∧ (s.rail r).faultLatch = true)
      ∨ (∃ v, c = .warmReset v) ∨ c = .powerOnReset ∨ (s.lifecycle = .uncommitted ∧ ∃ l f v, c = .commit l f v)

/-- R21: the filtered PG of a rail takes what its filter takes, and goes LOW at power-on reset; nothing else writes it.
R158: The counter rises by 1 at a tick, wrapping, becomes 0 at the two resets, and is written by nothing else. -/
def Obligations.PgAndCounterHaveTheirOwnWriters : Prop :=
  (∀ (c : Instr) (s t : State) (r : Rail), exec c s = .next t →
    (t.rail r).pg = (s.rail r).pg ∨ c = .pgChangeTaken r (t.rail r).pg ∨ (c = .powerOnReset ∧ (t.rail r).pg = .low))
    ∧ (∀ (c : Instr) (s t : State), exec c s = .next t →
        t.timestamp = s.timestamp ∨ (c = .timestampTick ∧ t.timestamp.toNat = (s.timestamp.toNat + 1) % 65536)
          ∨ (t.timestamp = 0 ∧ ((∃ v, c = .warmReset v) ∨ c = .powerOnReset)))

/-- R136, R139, R142, R178: a request of one link leaves the other links, and of the other sessions their states, lease lengths,
lease timers and masks, as they were; and, but for COMMIT, their claims. -/
def Obligations.RequestsLeaveOtherLinksAlone : Prop :=
  ∀ (c : Instr) (k : Kind) (l m : Link) (f : Frame) (s t : State),
    c.request? = some (k, l, f) → exec c s = .next t → m ≠ l →
      t.link m = s.link m
        ∧ t.session m =
          { s.session m with
            table := (t.session m).table
            queue := (t.session m).queue
            lost := (t.session m).lost
            alertn := (t.session m).alertn }
        ∧ (k ≠ .commit → ∀ r : Rail, t.claim m r = s.claim m r)

/-! ### Requests turned away (R130, R164, R178, R179, R182) -/

/-- R182, checks 1 and 2: a frame with a wrong CRC, a length byte above 32 or a length its kind does not allow is answered BAD_FRAME,
one whose kind is not listed UNKNOWN_KIND; neither changes anything else. (COMMIT's operand SENSE is stored, log 8.) -/
def Obligations.BadFramesAreRefused : Prop :=
  ∀ (c : Instr) (k : Kind) (l : Link) (f : Frame) (s : State) (st : Status),
    c.request? = some (k, l, f) → f.wf = true → (s.link l).receiver = .request →
    (if 32 < f.length.toNat ∨ f.crc ≠ crc8 (kindByteOf k f.kind :: f.tag :: f.length :: f.args) then st = .badFrame
      else if f.kind ≠ .own then st = .unknownKind
      else k.allowsLength f.length.toNat = false ∧ st = .badFrame) →
    ∃ t, exec c s = .next t ∧ Answered s t l st f [] ∧ t = { s with links := t.links, sense := t.sense }

/-- R130, R182 check 3: a request that the session state does not allow is answered NOT_ATTACHED, ALREADY_ATTACHED or
LEASE_EXPIRED and changes nothing else; the lease is not renewed.
R164, R182 check 4: A request that the lifecycle does not allow is answered NOT_COMMITTED or LOCKED; it has renewed its session's
lease and changes nothing else. -/
def Obligations.SessionAndLifecycleChecksRefuse : Prop :=
  (∀ (c : Instr) (k : Kind) (l : Link) (f : Frame) (s : State) (st : Status),
    c.request? = some (k, l, f) → frameRefusal k f = none → (s.link l).receiver = .request →
    (((s.session l).state = .detached ∧ k ≠ .attach ∧ st = .notAttached)
      ∨ ((s.session l).state = .attached ∧ k = .attach ∧ st = .alreadyAttached)
      ∨ ((s.session l).state = .expired ∧ k ≠ .attach ∧ k ≠ .detach ∧ st = .leaseExpired)) →
    ∃ t, exec c s = .next t ∧ Answered s t l st f [] ∧ t = { s with links := t.links, sense := t.sense })
    ∧ (∀ (c : Instr) (k : Kind) (l : Link) (f : Frame) (s : State) (st : Status),
        c.request? = some (k, l, f) → frameRefusal k f = none → (s.link l).receiver = .request →
        (s.session l).state = .attached →
        ((s.lifecycle = .uncommitted ∧ (k = .claim ∨ k = .release ∨ k = .clearFault) ∧ st = .notCommitted)
          ∨ (s.lifecycle = .committed ∧ (k = .writeRail ∨ k = .writePart ∨ k = .commit) ∧ st = .locked)) →
        ∃ t, exec c s = .next t ∧ Answered s t l st f []
          ∧ t = { s with links := t.links, sessions := s.leaseRestarted l, sense := t.sense })

/-! ### Sessions (chapter 7) -/

/-- R132: an ATTACH with good arguments attaches the session under its lease and mask and reports the link, the lifecycle and the
supply state; one with a lease of 0 or a mask bit above 4 is answered BAD_ARGUMENT and leaves the session as it is. -/
def Obligations.AttachOpensTheSession : Prop :=
  ∀ (l : Link) (f : Frame) (s : State), Passes s .attach l f →
    (argByte f 0 ≠ 0 → (argByte f 1).toNat < 32 →
      ∃ t, exec (.attach l f) s = .next t
        ∧ Answered s t l .ok f [BitVec.ofNat 8 l.val, s.lifecycle.code, s.reportedSupply.code]
        ∧ t =
          { s with
            links := t.links
            sessions := s.sessions.set l.val
              { s.session l with
                state := .attached
                leaseLength := argByte f 0
                leaseTimer := .running ((argByte f 0).toNat * 100)
                mask :=
                  { railFault := (argByte f 1).getLsbD 0
                    forcedOff := (argByte f 1).getLsbD 1
                    suspendResume := (argByte f 1).getLsbD 2
                    supplyChange := (argByte f 1).getLsbD 3
                    faultCleared := (argByte f 1).getLsbD 4 } } l.isLt })
    ∧ (argByte f 0 = 0 ∨ 32 ≤ (argByte f 1).toNat →
      ∃ t, exec (.attach l f) s = .next t ∧ Answered s t l .badArgument f [] ∧ t = { s with links := t.links })

/-- R134: a RENEW that passes has restarted the lease and does nothing else, as any other request but DETACH that passes the session
check of an ATTACHED session restarts it; from a session that is not ATTACHED it is refused and revives nothing. -/
def Obligations.RenewRestartsTheLease : Prop :=
  (∀ n : Nat, Kind.renew.allowsLength n = true ↔ n = 0)
    ∧ (∀ (l : Link) (f : Frame) (s : State), (s.link l).receiver = .request → frameRefusal .renew f = none →
      ((s.session l).state = .attached →
        ∃ t, exec (.renew l f) s = .next t ∧ Answered s t l .ok f []
          ∧ t = { s with links := t.links, sessions := s.leaseRestarted l })
      ∧ ((s.session l).state = .detached →
        ∃ t, exec (.renew l f) s = .next t ∧ Answered s t l .notAttached f [] ∧ t = { s with links := t.links })
      ∧ ((s.session l).state = .expired →
        ∃ t, exec (.renew l f) s = .next t ∧ Answered s t l .leaseExpired f [] ∧ t = { s with links := t.links }))
    ∧ ∀ (c : Instr) (k : Kind) (l : Link) (f : Frame) (s : State),
      c.request? = some (k, l, f) → k ≠ .attach → k ≠ .detach → (s.link l).receiver = .request →
      frameRefusal k f = none → (s.session l).state = .attached →
      ∃ t, exec c s = .next t ∧ (t.session l).leaseTimer = .running ((s.session l).leaseLength.toNat * 100)

/-- R135: DETACH ends an ATTACHED session, whatever it holds, by its teardown, and an EXPIRED one by its state alone; from a DETACHED
session it is refused and nothing changes. -/
def Obligations.DetachEndsTheSession : Prop :=
  (∀ n : Nat, Kind.detach.allowsLength n = true ↔ n = 0)
    ∧ ∀ (l : Link) (f : Frame) (s : State), (s.link l).receiver = .request → frameRefusal .detach f = none →
    ((s.session l).state = .attached →
      ∃ t, exec (.detach l f) s = .next t ∧ Answered s t l .ok f []
        ∧ t.session l = (s.session l).gone .detached ∧ (∀ r : Rail, t.claim l r = 0)
        ∧ Reaction (s.without l .detached) { t with links := s.links })
    ∧ ((s.session l).state = .expired →
      ∃ t, exec (.detach l f) s = .next t ∧ Answered s t l .ok f []
        ∧ t =
          { s with
            links := t.links
            sessions := s.sessions.set l.val { s.session l with state := .detached } l.isLt })
    ∧ ((s.session l).state = .detached →
      ∃ t, exec (.detach l f) s = .next t ∧ Answered s t l .notAttached f [] ∧ t = { s with links := t.links })

/-- R137, R138: the lease of an ATTACHED session expires: the session is torn down to EXPIRED and its claims are given up.
R139: LRSTn of a link falls: its receiver goes to IDLE and its session, whatever its state, is torn down to DETACHED; nothing else
is touched but through the claims given up. -/
def Obligations.LeaseExpiryAndLinkResetTearDown : Prop :=
  (∀ (l : Link) (s : State), (s.session l).state = .attached → (s.session l).leaseTimer = .running 0 →
    ∃ t, exec (.leaseExpiry l) s = .next t
      ∧ t.session l = (s.session l).gone .expired ∧ (∀ r : Rail, t.claim l r = 0)
      ∧ Reaction (s.without l .expired) t)
    ∧ (∀ (l : Link) (s : State), (s.link l).lrstn = .high →
        ∃ t, exec (.linkReset l) s = .next t
          ∧ t.session l = (s.session l).gone .detached ∧ (∀ r : Rail, t.claim l r = 0)
          ∧ t.links = s.links.set l.val { s.link l with receiver := .idle, lrstn := .low } l.isLt
          ∧ Reaction (s.without l .detached) { t with links := s.links })

/-- R159, R161, R189, R191: FETCH_EVENT removes and returns the head record, in eight bytes after the remaining and the lost count, and
clears the lost count; on an empty queue it answers EMPTY (that it clears the lost count there too is R159's, against R131; the
model's choice, log 28); ALERTn goes HIGH with the last record. -/
def Obligations.FetchReturnsTheHead : Prop :=
  ∀ (l : Link) (f : Frame) (s : State), Passes s .fetchEvent l f →
    (∀ (e : EventRecord) (rest : List EventRecord), (s.session l).queue = e :: rest →
      let kind : Byte :=
        if e.code ∈ [.granted, .superseded, .cancelled, .failed, .offReached, .held] then 0x00 else 0x01
      let code : Byte :=
        match e.code with
        | .granted => 0x01
        | .superseded => 0x02
        | .cancelled => 0x03
        | .failed => 0x04
        | .offReached => 0x05
        | .held => 0x06
        | .railFault => 0x11
        | .forcedOff => 0x12
        | .suspended => 0x13
        | .resumed => 0x14
        | .supplyChange => 0x15
        | .faultCleared => 0x16
      let rail : Byte :=
        match e.rail with
        | some r => BitVec.ofNat 8 r.val
        | none => 0xFF
      let detail : Byte :=
        match e.detail with
        | .absent => 0xFF
        | .fault none => 0x00
        | .fault (some .rampTimeout) => 0x01
        | .fault (some .pgLost) => 0x02
        | .fault (some .slewFail) => 0x03
        | .fault (some .drainStuck) => 0x04
        | .fault (some .backfeed) => 0x05
        | .supply .normal => 0x00
        | .supply .low => 0x01
        | .supply .collapse => 0x02
        | .supply .recovering => 0x03
      ∃ t, exec (.fetchEvent l f) s = .next t
        ∧ Answered s t l .ok f
          [BitVec.ofNat 8 rest.length, BitVec.ofNat 8 (s.session l).lost, kind, code, rail, e.tag.getD 0xFF,
            BitVec.ofNat 8 e.level, detail, e.timestamp.extractLsb' 8 8, e.timestamp.extractLsb' 0 8]
        ∧ t =
          { s with
            links := t.links
            sessions := s.sessions.set l.val
              { s.session l with
                leaseTimer := .running ((s.session l).leaseLength.toNat * 100)
                queue := rest
                lost := 0
                alertn := if rest = [] then .high else (s.session l).alertn } l.isLt })
    ∧ ((s.session l).queue = [] →
      ∃ t, exec (.fetchEvent l f) s = .next t
        ∧ Answered s t l .empty f [0, BitVec.ofNat 8 (s.session l).lost]
        ∧ t =
          { s with
            links := t.links
            sessions := s.sessions.set l.val
              { s.session l with
                leaseTimer := .running ((s.session l).leaseLength.toNat * 100)
                lost := 0 } l.isLt })

/-! ### Claims (chapter 3) -/

/-- R61: a CLAIM naming no defined rail, a level out of range, or taken without room is refused in that order, and changes nothing but
the lease. R65: A RELEASE naming no defined rail, a wait choice above 1, or, with wait, taken without room is refused in that order, and
changes nothing but the lease. (That either RELEASE row carries any wait choice is the model's choice, log 7.) -/
def Obligations.ClaimAndReleaseChecksRefuse : Prop :=
  (∀ (l : Link) (f : Frame) (s : State) (st : Status), Passes s .claim l f →
    (((∀ r : Rail, ¬ Names s f r) ∧ st = .noRail)
      ∨ (∃ r : Rail, Names s f r
        ∧ (argByte f 1 = 0 ∨ (s.record r).levelCount.toNat < (argByte f 1).toNat) ∧ st = .badLevel)
      ∨ (∃ r : Rail, Names s f r ∧ argByte f 1 ≠ 0 ∧ (argByte f 1).toNat ≤ (s.record r).levelCount.toNat
        ∧ 24 ≤ (s.session l).roomUsed ∧ st = .queueFull)) →
    ∃ t, exec (.claim l f) s = .next t ∧ Answered s t l st f []
      ∧ t = { s with links := t.links, sessions := s.leaseRestarted l })
    ∧ (∀ (c : Instr) (l : Link) (f : Frame) (s : State) (st : Status),
        c = .releaseWithoutWait l f ∨ c = .releaseWithWait l f → Passes s .release l f →
        (((∀ r : Rail, ¬ Names s f r) ∧ st = .noRail)
          ∨ ((∃ r : Rail, Names s f r) ∧ 2 ≤ (argByte f 1).toNat ∧ st = .badArgument)
          ∨ ((∃ r : Rail, Names s f r) ∧ argByte f 1 = 1 ∧ 24 ≤ (s.session l).roomUsed ∧ st = .queueFull)) →
        ∃ t, exec c s = .next t ∧ Answered s t l st f []
          ∧ t = { s with links := t.links, sessions := s.leaseRestarted l })

/-- R62, R63: an accepted CLAIM supersedes the session's outstanding completion on the rail, writes its claim entry, on which the rails
act, and sets up a CLAIM-WAIT that is answered at once where the rail is in FAULT or already in ON high enough. -/
def Obligations.ClaimIsTaken : Prop :=
  ∀ (l : Link) (f : Frame) (s : State) (r : Rail), Passes s .claim l f → Names s f r → argByte f 1 ≠ 0 →
    (argByte f 1).toNat ≤ (s.record r).levelCount.toNat → (s.session l).roomUsed < 24 →
    ∃ t, exec (.claim l f) s = .next t ∧ Answered s t l .accepted f []
      ∧ t.claim l r = (argByte f 1).toNat
      ∧ ReactionBeside l (s.setClaim l r (argByte f 1).toNat) t ∧ ServedSession l s t
      ∧ (match s.outstanding l r with
        | some o =>
          (s.session l).queue ++ [⟨.superseded, some r, some o.tag, (s.rail r).level, .absent, s.timestamp⟩]
            <+: (t.session l).queue
        | none => (s.session l).queue <+: (t.session l).queue)
      ∧ (∀ x : Rail, x ≠ r → t.outstanding l x = none ∨ t.outstanding l x = s.outstanding l x)
      ∧ if (t.rail r).state = .fault then
          t.outstanding l r = none
            ∧ (t.session l).queue.getLast? =
              some ⟨.failed, some r, some f.tag, 0, .fault (t.rail r).faultKind, s.timestamp⟩
        else if (t.rail r).state = .on ∧ (argByte f 1).toNat ≤ (t.rail r).level then
          t.outstanding l r = none
            ∧ (t.session l).queue.getLast? =
              some ⟨.granted, some r, some f.tag, (t.rail r).level, .absent, s.timestamp⟩
        else t.outstanding l r = some ⟨.claimWait (argByte f 1).toNat, f.tag⟩

/-- R66: an accepted RELEASE without wait cancels the session's outstanding CLAIM-WAIT on the rail and sets its claim entry to 0, on which
the rails act; it needs no room. -/
def Obligations.ReleaseWithoutWaitIsTaken : Prop :=
  ∀ (l : Link) (f : Frame) (s : State) (r : Rail), Passes s .release l f → Names s f r → argByte f 1 = 0 →
    ∃ t, exec (.releaseWithoutWait l f) s = .next t ∧ Answered s t l .ok f []
      ∧ t.claim l r = 0
      ∧ ReactionBeside l (s.setClaim l r 0) t ∧ ServedSession l s t
      ∧ (∀ (level : Nat) (tag : Byte), s.outstanding l r = some ⟨.claimWait level, tag⟩ →
        t.outstanding l r = none
          ∧ (s.session l).queue ++ [⟨.cancelled, some r, some tag, (s.rail r).level, .absent, s.timestamp⟩]
            <+: (t.session l).queue)
      ∧ (s.session l).queue <+: (t.session l).queue
      ∧ ∀ x : Rail, t.outstanding l x = none ∨ t.outstanding l x = s.outstanding l x

/-- R67: an accepted RELEASE with wait supersedes the session's outstanding completion on the rail, sets its claim entry to 0, on which
the rails act, and sets up an OFF-WAIT that is answered HELD or OFF_REACHED at once where the rail then calls for it. (That a rail in
FAULT whose target stays above 0 answers HELD is R67's, against R99 and R106; the model's choice, log 26.) -/
def Obligations.ReleaseWithWaitIsTaken : Prop :=
  ∀ (l : Link) (f : Frame) (s : State) (r : Rail), Passes s .release l f → Names s f r → argByte f 1 = 1 →
    (s.session l).roomUsed < 24 →
    ∃ t, exec (.releaseWithWait l f) s = .next t ∧ Answered s t l .accepted f []
      ∧ t.claim l r = 0
      ∧ ReactionBeside l (s.setClaim l r 0) t ∧ ServedSession l s t
      ∧ (match s.outstanding l r with
        | some o =>
          (s.session l).queue ++ [⟨.superseded, some r, some o.tag, (s.rail r).level, .absent, s.timestamp⟩]
            <+: (t.session l).queue
        | none => (s.session l).queue <+: (t.session l).queue)
      ∧ (∀ x : Rail, x ≠ r → t.outstanding l x = none ∨ t.outstanding l x = s.outstanding l x)
      ∧ if (t.rail r).target ≠ 0 then
          t.outstanding l r = none
            ∧ (t.session l).queue.getLast? =
              some ⟨.held, some r, some f.tag, (t.rail r).level, .absent, s.timestamp⟩
        else if (t.rail r).state = .off ∨ (t.rail r).state = .fault then
          t.outstanding l r = none
            ∧ (t.session l).queue.getLast? = some ⟨.offReached, some r, some f.tag, 0, .absent, s.timestamp⟩
        else t.outstanding l r = some ⟨.offWait, f.tag⟩

/-! ### Faults (chapter 5) -/

/-- R107: the checks of CLEAR_FAULT refuse in their order, and change nothing but the lease. -/
def Obligations.ClearFaultChecksRefuse : Prop :=
  ∀ (l : Link) (f : Frame) (s : State) (st : Status), Passes s .clearFault l f →
    (((∀ r : Rail, ¬ Names s f r) ∧ st = .noRail)
      ∨ (∃ r : Rail, Names s f r ∧ s.claim l r = 0 ∧ st = .notHolder)
      ∨ (∃ r : Rail, Names s f r ∧ s.claim l r ≠ 0 ∧ (s.rail r).faultLatch = false ∧ st = .notFaulted)
      ∨ (∃ r : Rail, Names s f r ∧ s.claim l r ≠ 0 ∧ (s.rail r).faultLatch = true ∧ (s.record r).retryLimit ≠ 0
        ∧ (s.record r).retryLimit.toNat ≤ (s.rail r).faultCount ∧ st = .exhausted)) →
    ∃ t, exec (.clearFault l f) s = .next t ∧ Answered s t l st f []
      ∧ t = { s with links := t.links, sessions := s.leaseRestarted l }

/-- R48, R108, R109: an accepted CLEAR_FAULT clears the latch and takes the rail to OFF, and on to WAITING where its target is above 0,
from where it may be granted its START at the event; kind and count stay, unless the rail is granted a START at the event and finds BACKFEED; the other claimants that ask for it are
offered FAULT_CLEARED; the response reports the rail's state. -/
def Obligations.ClearFaultIsTaken : Prop :=
  ∀ (l : Link) (f : Frame) (s : State) (r : Rail), Passes s .clearFault l f → Names s f r → s.claim l r ≠ 0 →
    (s.rail r).faultLatch = true →
    (s.record r).retryLimit = 0 ∨ (s.rail r).faultCount < (s.record r).retryLimit.toNat →
    ∃ t, exec (.clearFault l f) s = .next t ∧ Answered s t l .ok f [(t.rail r).state.code]
      ∧ ReactionBeside l
        { s with
          rails := s.rails.set r.val
            { s.rail r with
              faultLatch := false
              level := 0
              state := if (s.rail r).target = 0 then .off else .waiting } r.isLt } t
      ∧ ServedSession l s t
      ∧ ((t.rail r).state = .fault →
        (t.rail r).faultKind = some .backfeed ∧ s.monitored r = true ∧ (s.rail r).pg = .high)
      ∧ ((t.rail r).state ≠ .fault → (t.rail r).faultLatch = false)
      ∧ (Coherent s → (s.rail r).target = 0 → (t.rail r).state = .off)
      ∧ (Coherent s → (s.rail r).target ≠ 0 →
        (t.rail r).state = .waiting ∨ (t.rail r).state = .ramping ∨ (t.rail r).state = .fault)
      ∧ ∀ m : Link, m ≠ l → (s.session m).state = .attached → (s.session m).mask.faultCleared = true →
        s.claim m r ≠ 0 →
        (⟨.faultCleared, some r, none, 0, .fault (s.rail r).faultKind, s.timestamp⟩ : EventRecord)
            ∈ (t.session m).queue
          ∨ 24 ≤ (t.session m).roomUsed

/-- R47, R92 to R100: the rail whose event finds a fault enters FAULT: its lines, level, timer, marks, latch, kind, count, budget, queue
entry and holds; every session's outstanding completion on it resolves FAILED, ahead of RAIL_FAULT for a claimant that asks for it and
has room. -/
def Obligations.FoundFaultEntersFault : Prop :=
  ∀ (c : Instr) (s : State) (r : Rail) (k : FaultKind), Finds s c r k →
    ∃ t, exec c s = .next t
      ∧ (t.rail r).state = .fault ∧ (t.rail r).en = .low ∧ (t.rail r).lvl = 0 ∧ (t.rail r).level = 0
      ∧ (t.rail r).timer = .stopped ∧ (t.rail r).slewOrigin = none ∧ (t.rail r).drainFinished = false
      ∧ (t.rail r).faultLatch = true ∧ (t.rail r).faultKind = some k
      ∧ (t.rail r).faultCount = min ((s.rail r).faultCount + 1) 15 ∧ (t.rail r).held = 0
      ∧ t.queued r = false ∧ (∀ p ∈ s.parentsOf r, (t.rail p).holdSet.get r = false)
      ∧ ∀ l : Link, (s.session l).state = .attached →
        t.outstanding l r = none
          ∧ (s.session l).queue
              ++ (match s.outstanding l r with
                | some o => [⟨.failed, some r, some o.tag, 0, .fault (some k), s.timestamp⟩]
                | none => [])
              ++ (if s.claim l r ≠ 0 ∧ (s.session l).mask.railFault = true ∧ (s.session l).roomUsed < 24 then
                  [⟨.railFault, some r, none, 0, .fault (some k), s.timestamp⟩]
                else [])
            <+: (t.session l).queue

/-- R101, R102: the cascade of an entry into FAULT sends every running descendant it reaches into DRAINING with cause PARENT_FAULT at its
level, with its claims kept, and the claimants that ask for it are offered FORCED_OFF with the fault's kind. -/
def Obligations.CascadeForcesRunningDescendants : Prop :=
  ∀ (c : Instr) (s t : State) (r d : Rail) (k : FaultKind), Finds s c r k → Forced s r d → exec c s = .next t →
    (t.rail d).state = .draining ∧ (t.rail d).drainCause = .parentFault ∧ (t.rail d).en = .low
      ∧ (t.rail d).level = (s.rail d).level ∧ (t.rail d).drainFinished = false
      ∧ (t.rail d).timer = .running (s.record d).drainTime.toNat
      ∧ (t.rail d).claims = (s.rail d).claims ∧ t.queued d = false
      ∧ ∀ l : Link, (s.session l).state = .attached → (s.session l).mask.forcedOff = true → s.claim l d ≠ 0 →
        (⟨.forcedOff, some d, none, (s.rail d).level, .fault (some k), s.timestamp⟩ : EventRecord)
            ∈ (t.session l).queue
          ∨ 24 ≤ (t.session l).roomUsed

/-! ### Rail events (chapter 2) -/

/-- R21 to R48: the events of a rail's timer, the end of its drain and the arbiter's grants write no more than the rails, the arbiter and
the sessions' records (`Reaction`); a PG change taken writes the filtered PG of its rail as well. -/
def Obligations.RailEventsWriteNoMore : Prop :=
  (∀ (c : Instr) (s t : State) (r : Rail),
      c = .rampTimeExpiry r ∨ c = .slewTimeExpiry r ∨ c = .drainTimeExpiry r ∨ c = .deferredOff r ∨ c = .startGrant r
        ∨ c = .raiseGrant r →
      exec c s = .next t → Reaction s t)
    ∧ ∀ (s t : State) (r : Rail) (level : Line), exec (.pgChangeTaken r level) s = .next t →
      Reaction { s with rails := s.rails.set r.val { s.rail r with pg := level } r.isLt } t

/-- R21: a PG change that no rule acts on is taken into the filtered PG and changes nothing else: on a TIMED or an absent rail, in an
uncommitted part, or in any case but HIGH taken in RAMPING and LOW taken in ON. -/
def Obligations.OtherPgChangesAreOnlyTaken : Prop :=
  ∀ (r : Rail) (level : Line) (s : State),
    s.lifecycle = .uncommitted ∨ s.monitored r = false
      ∨ (¬ ((s.rail r).state = .ramping ∧ level = .high) ∧ ¬ ((s.rail r).state = .on ∧ level = .low)) →
    exec (.pgChangeTaken r level) s =
      .next { s with rails := s.rails.set r.val { s.rail r with pg := level } r.isLt }

/-- R29, R30, R33, R40: a rail that reaches ON grants the CLAIM-WAITs at or below its level, and stays in ON, slews or drains as its
target asks; in a coherent part whose event leaves the target at the level it stays in ON there, its timer stopped, its budget
trimmed to the cost of its level. -/
def Obligations.EndedRampOrSlewReachesOn : Prop :=
  ∀ (c : Instr) (s : State) (r : Rail), Reaches s c r →
    ∃ t, exec c s = .next t
      ∧ ((t.rail r).state = .on ∨ (t.rail r).state = .slewing ∨ (t.rail r).state = .draining)
      ∧ (Coherent s → (s.rail r).target = (s.rail r).level → (t.rail r).target = (s.rail r).target →
        (t.rail r).state = .on ∧ (t.rail r).level = (s.rail r).level ∧ (t.rail r).en = .high
          ∧ (t.rail r).timer = .stopped ∧ (t.rail r).slewOrigin = none
          ∧ (t.rail r).held = (s.record r).costOf (s.rail r).level)
      ∧ (Coherent s → (s.rail r).target = 0 → (t.rail r).state = .draining ∧ (t.rail r).drainCause = .normal)
      ∧ (Coherent s → (s.rail r).target ≠ 0 → (s.rail r).target < (s.rail r).level →
        (t.rail r).state = .slewing ∧ (t.rail r).slewOrigin = some (s.rail r).level
          ∧ (t.rail r).level = (s.rail r).target ∧ (t.rail r).timer = .running (s.record r).slewTime.toNat)
      ∧ ∀ (l : Link) (level : Nat) (tag : Byte), (s.session l).state = .attached →
        s.outstanding l r = some ⟨.claimWait level, tag⟩ → level ≤ (s.rail r).level →
        t.outstanding l r = none
          ∧ (⟨.granted, some r, some tag, (s.rail r).level, .absent, s.timestamp⟩ : EventRecord)
            ∈ (t.session l).queue

/-- R43: a drain time that expires while a child in DRAINING holds the rail marks the drain finished and leaves everything else as it
is. R43, R44: A finished drain that no draining child holds ends in OFF, at the expiry or by the deferred end: the budget is given back,
the OFF-WAITs are answered OFF_REACHED, the drain cause stays, and a rail with a target above 0 goes on. (As a command of its own the
deferred end finds such a rail only where the event that called for it has not taken it, log 6.) -/
def Obligations.DrainsEndOnceNoDrainingChildHolds : Prop :=
  (∀ (r : Rail) (s : State), Coherent s → (s.rail r).state = .draining → (s.rail r).timer = .running 0 →
    s.monitored r = false ∨ (s.rail r).pg = .low → s.heldByDraining r = true →
    exec (.drainTimeExpiry r) s =
      .next
        { s with
          rails := s.rails.set r.val { s.rail r with timer := .stopped, drainFinished := true } r.isLt })
    ∧ (∀ (c : Instr) (r : Rail) (s : State), (s.rail r).state = .draining → s.heldByDraining r = false →
        (c = .drainTimeExpiry r ∧ Coherent s ∧ (s.rail r).timer = .running 0
            ∧ (s.monitored r = false ∨ (s.rail r).pg = .low))
          ∨ (c = .deferredOff r ∧ (s.rail r).drainFinished = true
            ∧ Coherent
              { s with
                rails := s.rails.set r.val { s.rail r with timer := .running 0, drainFinished := false } r.isLt }) →
        ∃ t, exec c s = .next t
          ∧ ((s.rail r).target = 0 →
            (t.rail r).state = .off ∧ (t.rail r).level = 0 ∧ (t.rail r).held = 0 ∧ (t.rail r).lvl = 0
              ∧ (t.rail r).timer = .stopped ∧ (t.rail r).target = 0
              ∧ ∀ p ∈ s.parentsOf r, (t.rail p).holdSet.get r = false)
          ∧ ((s.rail r).target ≠ 0 →
            (t.rail r).state = .waiting ∨ (t.rail r).state = .ramping ∨ (t.rail r).state = .fault)
          ∧ (t.rail r).drainFinished = false ∧ (t.rail r).drainCause = (s.rail r).drainCause
          ∧ ∀ (l : Link) (tag : Byte), (s.session l).state = .attached → s.outstanding l r = some ⟨.offWait, tag⟩ →
            t.outstanding l r = none
              ∧ (⟨.offReached, some r, some tag, 0, .absent, s.timestamp⟩ : EventRecord) ∈ (t.session l).queue)

/-- R32: while a rail goes on ramping, no command changes its level, its LVL lines or its budget, its timer only runs down, and it has no
entry in the queue. -/
def Obligations.RampGoesOnToItsLevel : Prop :=
  ∀ (c : Instr) (s t : State) (r : Rail), Coherent s → exec c s = .next t →
    (s.rail r).state = .ramping → (t.rail r).state = .ramping →
    (t.rail r).level = (s.rail r).level ∧ (t.rail r).lvl = (s.rail r).lvl ∧ (t.rail r).en = .high
      ∧ (t.rail r).held = (s.rail r).held ∧ t.queued r = false
      ∧ ((t.rail r).timer = (s.rail r).timer ∨ (c = .timestampTick ∧ (t.rail r).timer = (s.rail r).timer.tick))

/-- R26, R27, R31, R36, R37, R42, R48, R54: what a changed target above or at 0 does to its rail, state by state. -/
def Obligations.TargetChangeActsByState : Prop :=
  ∀ (r : Rail) (s : State) (log : List Announcement),
    let x := s.rail r
    let y := (actOnTarget r ⟨s, log⟩).st.rail r
    (x.state = .off → x.target ≠ 0 → y.state = .waiting ∧ y.level = 0 ∧ y.en = .low)
      ∧ (x.state = .waiting → x.target = 0 → y.state = .off ∧ y.level = 0 ∧ y.en = .low)
      ∧ (x.state = .ramping ∨ x.state = .on → x.target = 0 →
        y.state = .draining ∧ y.drainCause = .normal ∧ y.level = x.level ∧ y.held = x.held ∧ y.en = .low
          ∧ y.timer = .running (s.record r).drainTime.toNat)
      ∧ (x.state = .on → x.target ≠ 0 → x.target < x.level →
        y.state = .slewing ∧ y.slewOrigin = some x.level ∧ y.level = x.target ∧ y.held = x.held ∧ y.en = .high
          ∧ y.lvl = lvlCode r x.target ∧ y.timer = .running (s.record r).slewTime.toNat)
      ∧ (x.state = .slewing ∨ x.state = .draining ∨ x.state = .fault
          ∨ (x.state = .ramping ∧ x.target ≠ 0) ∨ (x.state = .waiting ∧ x.target ≠ 0)
          ∨ (x.state = .on ∧ x.level ≤ x.target ∧ x.target ≠ 0) ∨ (x.state = .off ∧ x.target = 0) →
        (actOnTarget r ⟨s, log⟩).st = s)

/-! ### The budget arbiter (chapter 4) -/

/-- R80: an entry joins behind every entry of its own priority or a higher one and ahead of every lower one. -/
def Obligations.JoiningEntryTakesItsPlace : Prop :=
  ∀ (e : QueueEntry) (q : List QueueEntry), (q.Pairwise fun a b => b.priority ≤ a.priority) →
    placeEntry e q =
      (q.filter fun x => decide (e.priority ≤ x.priority)) ++ e :: q.filter fun x => decide (x.priority < e.priority)

/-- R28, R84, R85, R92: a START granted at the head moves the rail from WAITING into RAMPING at its target, with the granted budget; or,
MONITORED with its filtered PG HIGH, into FAULT with BACKFEED, giving the budget back.
R35, R84: A RAISE granted at the head moves the rail from ON into SLEWING to its target, with the level left behind as its origin and
the granted budget added.
R6, R75, R81, R83: A head fits where its amount is 0 or allocated plus it is within the limit (that 0 fits above the limit too is the
model's reading of these rules, log 27); one that does not fit is left as it is. (A grant as a command of its own is the model's
reading, log 5; its premise is a state that is coherent but for the head.)
R6, R77: A new request for amount 0, made by a CLAIM, is granted at once, whatever the queue holds and whatever allocated and the limit
are. -/
def Obligations.GrantsMoveTheRail : Prop :=
  (∀ (r : Rail) (s : State) (amount : Nat) (p : BitVec 2), s.budgetQueue.head? = some ⟨r, .start, amount, p⟩ →
      (Sound s → amount = 0 ∨ s.allocated + amount ≤ s.limit →
        ∃ t, exec (.startGrant r) s = .next t ∧ t.queued r = false
          ∧ (s.monitored r = true → (s.rail r).pg = .high →
            (t.rail r).state = .fault ∧ (t.rail r).faultKind = some .backfeed ∧ (t.rail r).held = 0
              ∧ (t.rail r).level = 0 ∧ (t.rail r).en = .low ∧ (t.rail r).lvl = 0
              ∧ (t.rail r).faultCount = min ((s.rail r).faultCount + 1) 15)
          ∧ (s.monitored r = false ∨ (s.rail r).pg = .low →
            (t.rail r).state = .ramping ∧ (t.rail r).en = .high ∧ (t.rail r).level = (s.rail r).target
              ∧ (t.rail r).lvl = lvlCode r (s.rail r).target ∧ (t.rail r).held = amount
              ∧ (t.rail r).timer = .running (s.record r).rampTime.toNat))
      ∧ (s.requestOf r = some (.start, amount) → 0 < amount → s.limit < s.allocated + amount →
        exec (.startGrant r) s = .next s))
    ∧ (∀ (r : Rail) (s : State) (amount : Nat) (p : BitVec 2), s.budgetQueue.head? = some ⟨r, .raise, amount, p⟩ →
      (Sound s → amount = 0 ∨ s.allocated + amount ≤ s.limit →
        ∃ t, exec (.raiseGrant r) s = .next t ∧ t.queued r = false
          ∧ (t.rail r).state = .slewing ∧ (t.rail r).en = .high ∧ (t.rail r).slewOrigin = some (s.rail r).level
          ∧ (t.rail r).level = (s.rail r).target ∧ (t.rail r).lvl = lvlCode r (s.rail r).target
          ∧ (t.rail r).held = (s.rail r).held + amount
          ∧ (t.rail r).timer = .running (s.record r).slewTime.toNat)
      ∧ (s.requestOf r = some (.raise, amount) → 0 < amount → s.limit < s.allocated + amount →
        exec (.raiseGrant r) s = .next s))
    ∧ ∀ (l : Link) (f : Frame) (s : State) (r : Rail), Coherent s → Passes s .claim l f → Names s f r →
      argByte f 1 ≠ 0 → (argByte f 1).toNat ≤ (s.record r).levelCount.toNat → (s.session l).roomUsed < 24 →
      (s.rail r).suspended = false →
      let level := (argByte f 1).toNat
      ((s.rail r).state = .off → (∀ p ∈ s.parentsOf r, (s.rail p).state = .on ∨ (s.rail p).state = .slewing) →
        s.supply.state ≠ .collapse → (s.record r).costOf level = 0 →
        s.monitored r = false ∨ (s.rail r).pg = .low →
        ∃ t, exec (.claim l f) s = .next t ∧ (t.rail r).state = .ramping ∧ (t.rail r).level = level
          ∧ (t.rail r).held = 0 ∧ t.allocated = s.allocated ∧ t.budgetQueue = s.budgetQueue)
      ∧ ((s.rail r).state = .on → s.queued r = false → (s.rail r).level < level →
        (∀ m : Link, m ≠ l → s.claim m r ≤ level) →
        (s.record r).costOf level = (s.record r).costOf (s.rail r).level →
        ∃ t, exec (.claim l f) s = .next t ∧ (t.rail r).state = .slewing ∧ (t.rail r).level = level
          ∧ (t.rail r).slewOrigin = some (s.rail r).level ∧ (t.rail r).held = (s.rail r).held
          ∧ t.allocated = s.allocated ∧ t.budgetQueue = s.budgetQueue)

/-! ### The supply monitor (chapter 6) -/

/-- R74, R114, R115, R118, R119, R122, R125: a crossing sets its comparator output; where the table of R115 names another state the
monitor enters it, with its limit, its holdoff and the suspended flags it calls for, SUPPLY_CHANGE and then SUSPENDED or RESUMED first
in the queues of the sessions that ask for them, and where it names none nothing else changes. (That a crossing command carries SENSE,
which the state keeps, and that one which is no crossing changes nothing but that stored level, are the model's choice, log 8.) -/
def Obligations.CrossingsChangeTheSupplyState : Prop :=
  (∀ (c : Instr) (s : State) (v : Nat) (w u : Side), senseOf c = some v → Crosses s c w u →
      let new : SupplyState := supplyAfter c s.supply.state
      (new = s.supply.state →
        exec c s = .next { s with sense := v, supply := { s.supply with warnOut := w, critOut := u } })
      ∧ (new ≠ s.supply.state →
        ∃ t, exec c s = .next t
          ∧ Reaction
            (({ s with sense := v } : State).supplied
              { s.supply with
                warnOut := w
                critOut := u
                state := new
                holdoff := if new = .recovering then .running (s.part.holdoffCode.toNat * 10) else .stopped }) t
          ∧ ∀ l : Link, Offered s t l (supplyNotices s t l new)))
    ∧ ∀ (c : Instr) (s : State) (v : Nat), senseOf c = some v → (∀ w u : Side, ¬ Crosses s c w u) →
      exec c s = .next { s with sense := v }

/-- R87, R123: at the entry to COLLAPSE every running rail goes into DRAINING with cause COLLAPSE at its level, its claims kept, and the
budget wait queue is empty. -/
def Obligations.CollapseDrainsEveryRunningRail : Prop :=
  ∀ (s t : State) (v : Nat) (w u : Side), Crosses s (.fallBelowCrit v) w u → s.supply.state ≠ .collapse →
    exec (.fallBelowCrit v) s = .next t →
    t.limit = 0 ∧ t.budgetQueue = []
      ∧ ∀ r : Rail, (s.rail r).state.running = true →
        (t.rail r).state = .draining ∧ (t.rail r).drainCause = .collapse ∧ (t.rail r).en = .low
          ∧ (t.rail r).level = (s.rail r).level ∧ (t.rail r).claims = (s.rail r).claims
          ∧ (t.rail r).timer = .running (s.record r).drainTime.toNat

/-- R117, R119, R121, R122, R125: a holdoff that has run in RECOVERING takes the monitor to NORMAL: the limit of NORMAL, the timer stopped,
the flags of the SHED rails cleared, SUPPLY_CHANGE and then RESUMED first in the queues of the sessions that ask for them. -/
def Obligations.HoldoffExpiryReturnsToNormal : Prop :=
  ∀ s : State, s.supply.active = true → s.supply.state = .recovering → s.supply.holdoff = .running 0 →
    ∃ t, exec .holdoffExpiry s = .next t
      ∧ Reaction (s.supplied { s.supply with state := .normal, holdoff := .stopped }) t
      ∧ ∀ l : Link, Offered s t l (supplyNotices s t l .normal)

/-! ### Commissioning (chapter 9) and queries (chapter 10) -/

/-- R165: WRITE_RAIL replaces the whole record of the rail named, each field as its bytes spell it; a rail number above 15, or a number of
entries that the record does not name, is answered BAD_ARGUMENT and leaves the table as it was. -/
def Obligations.WriteRailReplacesTheRecord : Prop :=
  ∀ (l : Link) (f : Frame) (s : State), Passes s .writeRail l f →
    let b := fun i => (f.args.getD i 0).toNat
    (∀ r : Rail, b 0 = r.val → f.args.length = 6 + 2 * (b 2 / 16) + b 1 % 8 →
      ∃ t, exec (.writeRail l f) s = .next t ∧ Answered s t l .ok f []
        ∧ t = { s with links := t.links, sessions := s.leaseRestarted l, records := t.records }
        ∧ (∀ x : Rail, x ≠ r → t.record x = s.record x)
        ∧ (t.record r).defined = decide (b 1 / 128 = 1)
        ∧ (t.record r).pgMode = (if b 1 / 64 % 2 = 1 then .timed else .monitored)
        ∧ (t.record r).shedClass = (if b 1 / 32 % 2 = 1 then .shed else .keep)
        ∧ (t.record r).priority.toNat = b 1 / 8 % 4
        ∧ (t.record r).levelCount.toNat = b 2 / 16 ∧ (t.record r).retryLimit.toNat = b 2 % 16
        ∧ (t.record r).rampTime.toNat = b 3 ∧ (t.record r).slewTime.toNat = b 4 ∧ (t.record r).drainTime.toNat = b 5
        ∧ (t.record r).costs.length = b 2 / 16
        ∧ (∀ i, i < b 2 / 16 → ((t.record r).costs.getD i 0).toNat = b (6 + 2 * i) * 256 + b (7 + 2 * i))
        ∧ (t.record r).parents = f.args.drop (6 + 2 * (b 2 / 16)))
    ∧ (16 ≤ b 0 ∨ f.args.length ≠ 6 + 2 * (b 2 / 16) + b 1 % 8 →
      ∃ t, exec (.writeRail l f) s = .next t ∧ Answered s t l .badArgument f []
        ∧ t = { s with links := t.links, sessions := s.leaseRestarted l })

/-- R166, R190: WRITE_PART replaces the whole part record, each field as its bytes spell it. -/
def Obligations.WritePartReplacesTheRecord : Prop :=
  ∀ (l : Link) (f : Frame) (s : State), Passes s .writePart l f →
    let b := fun i => (f.args.getD i 0).toNat
    ∃ t, exec (.writePart l f) s = .next t ∧ Answered s t l .ok f []
      ∧ t = { s with links := t.links, sessions := s.leaseRestarted l, part := t.part }
      ∧ t.part.budgetFull.toNat = b 0 * 16 + b 1 / 16 ∧ t.part.budgetLow.toNat = b 1 % 16 * 256 + b 2
      ∧ t.part.warnCode.toNat = b 3 / 4 ∧ t.part.critCode.toNat = b 3 % 4 * 16 + b 4 / 16
      ∧ t.part.hysteresisCode.toNat = b 4 / 2 % 8 ∧ t.part.holdoffCode.toNat = b 5

/-- R167, R190: READ_RAIL and READ_PART return the record as it stands, and change nothing but the lease; READ_RAIL of a number above 15
is answered BAD_ARGUMENT. -/
def Obligations.ReadsReturnTheRecords : Prop :=
  (∀ (l : Link) (f : Frame) (s : State), Passes s .readRail l f →
      (∀ r : Rail, (argByte f 0).toNat = r.val →
        ∃ t, exec (.readRail l f) s = .next t ∧ Answered s t l .ok f (railRecordBytes r (s.record r))
          ∧ t = { s with links := t.links, sessions := s.leaseRestarted l })
      ∧ (16 ≤ (argByte f 0).toNat →
        ∃ t, exec (.readRail l f) s = .next t ∧ Answered s t l .badArgument f []
          ∧ t = { s with links := t.links, sessions := s.leaseRestarted l }))
    ∧ ∀ (l : Link) (f : Frame) (s : State), Passes s .readPart l f →
      ∃ t, exec (.readPart l f) s = .next t ∧ Answered s t l .ok f (partRecordBytes s.part)
        ∧ t = { s with links := t.links, sessions := s.leaseRestarted l }

/-- R171: a COMMIT that fails a check is answered COMMIT_FAILED with the reason and the rail; the table, the lifecycle and every block
stay as they are, and a COMMIT with no write between fails with the same reason and rail. -/
def Obligations.FailedCommitChangesNothing : Prop :=
  (∀ (l : Link) (f : Frame) (v : Nat) (s : State) (reason : CommitReason) (rail : Byte), Passes s .commit l f →
      commitFault s = some (reason, rail) →
      ∃ t, exec (.commit l f v) s = .next t ∧ Answered s t l .commitFailed f [reason.code, rail]
        ∧ t = { s with links := t.links, sessions := s.leaseRestarted l, sense := t.sense }
        ∧ t.lifecycle = .uncommitted)
    ∧ ∀ s t : State, t.records = s.records → t.part = s.part → commitFault t = commitFault s

/-- R49, R89, R119, R126, R172: a COMMIT that passes every check commits the table, sets every rail to its power-on values but its
filtered PG, takes the supply state that SENSE gives with its limit and flags, and offers SUPPLY_CHANGE where that is not NORMAL. -/
def Obligations.AcceptedCommitActivatesThePart : Prop :=
  ∀ (l : Link) (f : Frame) (v : Nat) (s : State), Passes s .commit l f → commitFault s = none →
    let warn := 2400 + s.part.warnCode.toNat * 50
    let crit := 2400 + s.part.critCode.toNat * 50
    let found : SupplyState := if v < crit then .collapse else if v < warn then .low else .normal
    ∃ t, exec (.commit l f v) s = .next t ∧ Answered s t l .ok f [found.code]
      ∧ t =
        { s with
          links := t.links
          sessions := t.sessions
          sense := v
          lifecycle := .committed
          allocated := 0
          budgetQueue := []
          limit :=
            match found with
            | .normal => s.part.budgetFull.toNat
            | .collapse => 0
            | _ => s.part.budgetLow.toNat
          supply :=
            { active := true
              state := found
              warnOut := if v < warn then .below else .above
              critOut := if v < crit then .below else .above
              holdoff := .stopped }
          rails := Vector.ofFn fun r =>
            { RailRuntime.powerOn with
              pg := (s.rail r).pg
              suspended := decide (found = .low ∧ (s.record r).defined = true ∧ (s.record r).shedClass = .shed) } }
      ∧ ∀ m : Link,
        let x := s.session m
        let y : Session :=
          if m = l then { x with leaseTimer := .running (x.leaseLength.toNat * 100) } else x
        t.session m =
          if found ≠ .normal ∧ x.state = .attached ∧ x.mask.supplyChange = true then
            if x.roomUsed < 24 then
              { y with
                queue := x.queue ++ [⟨.supplyChange, none, none, 0, .supply found, s.timestamp⟩]
                alertn := .low }
            else { y with lost := min (x.lost + 1) 255 }
          else y

/-- R170: on a table that passes the other checks, COMMIT reports CYCLE exactly where some defined rail stands above itself, with the
lowest such rail; a table that passes has no cycle, a chain of parents in it names no rail twice and so ends, every defined rail is a
root or stands below one, and there is at least one root. (That checks 1 to 6 pass is said with `partFault` and `railFaultAt`, which
`CommitChecksComeInOrder` spells out.) -/
def Obligations.CycleCheckFindsTheLowestRail : Prop :=
  ∀ s : State, partFault s.part = none → (∃ r : Rail, (s.record r).defined = true) →
    (∀ r : Rail, railFaultAt s r = none) →
    (∀ r : Rail,
      commitFault s = some (.cycle, BitVec.ofNat 8 r.val) ↔ Above s r r ∧ ∀ x : Rail, Above s x x → r ≤ x)
    ∧ (commitFault s = none ↔ ∀ r : Rail, ¬ Above s r r)
    ∧ (commitFault s = none →
      (∃ r : Rail, (s.record r).defined = true ∧ s.parentsOf r = [])
        ∧ (∀ chain : List Rail,
          (∀ (i : Nat) (c p : Rail), chain[i]? = some c → chain[i + 1]? = some p → s.isParent p c = true) → chain.Nodup)
        ∧ ∀ r : Rail, (s.record r).defined = true →
          s.parentsOf r = [] ∨ ∃ a : Rail, Above s a r ∧ (s.record a).defined = true ∧ s.parentsOf a = [])

/-- R184, R189, R191: the fourteen data bytes of QUERY_RAIL, for an absent rail as for a defined one; a number above 15 is refused with
NO_RAIL. Nothing but the lease changes. -/
def Obligations.QueryRailReportsTheRail : Prop :=
  ∀ (l : Link) (f : Frame) (s : State), Passes s .queryRail l f →
    (∀ r : Rail, (argByte f 0).toNat = r.val →
      let x := s.rail r
      ∃ t, ∃ hi lo flags : Byte,
        exec (.queryRail l f) s = .next t
          ∧ Answered s t l .ok f
            [x.state.code, BitVec.ofNat 8 x.level, BitVec.ofNat 8 x.target, BitVec.ofNat 8 x.claimDemand,
              BitVec.ofNat 8 (s.claim l r), hi, lo, flags, waitCode (s.waitReason r), faultCode x.faultKind,
              BitVec.ofNat 8 x.faultCount, x.drainCause.code, BitVec.ofNat 8 (x.held / 256), BitVec.ofNat 8 x.held]
          ∧ (∀ c : Rail, (hi ++ lo).getLsbD c.val = x.holdSet.get c)
          ∧ flags.toNat = (if x.suspended then 1 else 0) + (if (s.outstanding l r).isSome then 2 else 0)
          ∧ t = { s with links := t.links, sessions := s.leaseRestarted l })
    ∧ (16 ≤ (argByte f 0).toNat →
      ∃ t, exec (.queryRail l f) s = .next t ∧ Answered s t l .noRail f []
        ∧ t = { s with links := t.links, sessions := s.leaseRestarted l })

/-- R24: readiness; the wait reason of a rail in WAITING, by its order of precedence, and none in any other state; a rail that waits for
BUDGET is ready and, in a coherent part, has an entry in the budget wait queue; QUERY_RAIL reports the wait reason in its byte 8. -/
def Obligations.WaitReasonFollowsPrecedence : Prop :=
  ∀ (s : State) (r : Rail),
    ((s.rail r).state ≠ .waiting → s.waitReason r = none)
      ∧ ((s.rail r).state = .waiting →
        s.waitReason r =
          if ∃ p ∈ s.parentsOf r, (s.rail p).state = .fault then some .parentFault
          else if s.supply.state = .collapse then some .supply
          else if ∃ p ∈ s.parentsOf r, (s.rail p).state ≠ .on ∧ (s.rail p).state ≠ .slewing then some .parents
          else some .budget)
      ∧ (s.ready r = true ↔
        (s.rail r).state = .waiting ∧ (∀ p ∈ s.parentsOf r, (s.rail p).state = .on ∨ (s.rail p).state = .slewing)
          ∧ s.supply.state ≠ .collapse)
      ∧ (s.waitReason r = some .budget ↔ s.ready r = true)
      ∧ (Coherent s → s.waitReason r = some .budget → s.queued r = true)
      ∧ ∀ l : Link, (queryRailData s l r)[8]? =
        (some (match s.waitReason r with
          | some .parents => 0x01
          | some .budget => 0x02
          | some .supply => 0x03
          | some .parentFault => 0x04
          | none => 0xFF) : Option Byte)

/-- R185, R189, R191: the data bytes of QUERY_PART, 13 and 2 for each entry of the queue. Nothing but the lease changes. -/
def Obligations.QueryPartReportsThePart : Prop :=
  ∀ (l : Link) (f : Frame) (s : State), Passes s .queryPart l f →
    ∃ t, ∃ entries : List Byte,
      exec (.queryPart l f) s = .next t
        ∧ Answered s t l .ok f
          ([s.lifecycle.code, (if s.supply.active then s.supply.state else .normal).code,
            BitVec.ofNat 8 (s.limit / 256), BitVec.ofNat 8 s.limit,
            BitVec.ofNat 8 (s.allocated / 256), BitVec.ofNat 8 s.allocated,
            (s.session 0).state.code, (s.session 1).state.code, (s.session 2).state.code, (s.session 3).state.code,
            s.timestamp.extractLsb' 8 8, s.timestamp.extractLsb' 0 8,
            BitVec.ofNat 8 s.budgetQueue.length] ++ entries)
        ∧ entries.length = 2 * s.budgetQueue.length
        ∧ (∀ (i : Nat) (q : QueueEntry), s.budgetQueue[i]? = some q → q.amount < 1024 →
          (entries.getD (2 * i) 0).toNat * 256 + (entries.getD (2 * i + 1) 0).toNat
            = q.rail.val * 4096 + (if q.kind = .raise then 2048 else 0) + q.amount)
        ∧ t = { s with links := t.links, sessions := s.leaseRestarted l }

/-! ### Resets, lines and time (chapters 8 to 10) -/

/-- R50, R60, R90, R127, R139, R158, R175, R176: the fall of RESETn. Sessions and counter; the supply evaluated afresh; claims, fault
fields and flags cleared; running rails into DRAINING with cause RESTART, drains kept, every other rail into OFF, and on from there
where a draining child holds it. The table and the lifecycle stay. -/
def Obligations.WarmResetRestartsTheRails : Prop :=
  ∀ (s : State) (v : Nat), Coherent s → s.resetn = .high →
    ∃ t, exec (.warmReset v) s = .next t
      ∧ t.records = s.records ∧ t.part = s.part ∧ t.lifecycle = s.lifecycle ∧ t.pending = s.pending
      ∧ t.resetn = .low ∧ t.timestamp = 0
      ∧ (∀ l : Link, t.session l = (s.session l).gone .detached
        ∧ t.link l =
          { s.link l with
            receiver := if (s.link l).receiver = .request then .idle else (s.link l).receiver })
      ∧ (s.lifecycle = .uncommitted → t.supply = s.supply ∧ t.limit = s.limit)
      ∧ (s.lifecycle = .committed →
        t.supply.active = true ∧ t.supply.holdoff = .stopped ∧ t.limit = s.part.limitIn t.supply.state
          ∧ t.supply.state =
            (if v < s.part.crit then .collapse else if v < s.part.warn then .low else .normal)
          ∧ t.supply.warnOut = (if v < s.part.warn then .below else .above)
          ∧ t.supply.critOut = (if v < s.part.crit then .below else .above))
      ∧ ∀ r : Rail,
        (∀ l : Link, t.claim l r = 0) ∧ (t.rail r).pg = (s.rail r).pg
          ∧ ((t.rail r).state ≠ .fault →
            (t.rail r).faultLatch = false ∧ (t.rail r).faultKind = none ∧ (t.rail r).faultCount = 0)
          ∧ ((t.rail r).suspended = true ↔
            t.supply.active = true ∧ t.supply.state = .low ∧ (s.record r).defined = true
              ∧ (s.record r).shedClass = .shed)
          ∧ ((s.rail r).state.running = true →
            (t.rail r).state = .draining ∧ (t.rail r).drainCause = .restart ∧ (t.rail r).level = (s.rail r).level
              ∧ (t.rail r).held = (s.record r).costOf (s.rail r).level ∧ (t.rail r).en = .low
              ∧ (t.rail r).timer = .running (s.record r).drainTime.toNat)
          ∧ ((s.rail r).state = .draining →
            (t.rail r).state = .draining ∧ (t.rail r).drainCause = (s.rail r).drainCause
              ∧ (t.rail r).timer = (s.rail r).timer ∧ (t.rail r).drainFinished = (s.rail r).drainFinished
              ∧ (t.rail r).held = (s.rail r).held ∧ (t.rail r).level = (s.rail r).level)
          ∧ ((s.rail r).state ≠ .draining → (s.rail r).state.running = false →
            (t.rail r).drainCause = (s.rail r).drainCause
              ∧ ((∀ c : Rail, (t.rail r).holdSet.get c = false) → (t.rail r).state = .off ∧ (t.rail r).held = 0)
              ∧ ((∃ c : Rail, (t.rail r).holdSet.get c = true) →
                (t.rail r).state = .waiting ∨ (t.rail r).state = .ramping ∨ (t.rail r).state = .fault))

/-- R174: power-on reset gives every block its power-on values; the input lines, SENSE and the waiting commands stay as they are, which is
the model's choice (log 12). -/
def Obligations.PowerOnResetRestoresReset : Prop :=
  ∀ s : State, exec .powerOnReset s =
    .next
      { State.reset with
        pending := s.pending
        resetn := s.resetn
        sense := s.sense
        links := s.links.map fun x => { x with receiver := .idle } }

/-- R139, R176, R178, R179, R181: the commands on the link lines. A fall of CSn opens a window where LRSTn and RESETn are HIGH and the
receiver is in IDLE; a rise of CSn ends it, whatever it held; the end of a response leads to DONE; LRSTn and RESETn going HIGH. Nothing
else changes. SDO, by the receiver: high impedance in IDLE, 0x00 in REQUEST, the turnaround byte 0x00 and the response frame in RESPONSE,
0xFF in DONE. (A line already at its level does not move, log 10; FRAME_DISCARD is a rise of CSn, log 19; RESETn going HIGH leaves a
response as it is, log 11.) -/
def Obligations.LinkLinesMoveTheReceiver : Prop :=
  ∀ (l : Link) (s : State),
    let x := s.link l
    let with_ := fun (y : LinkPort) => ({ s with links := s.links.set l.val y l.isLt } : State)
    (x.csn = .high → x.receiver = .idle → x.lrstn = .high → s.resetn = .high →
        exec (.csnFall l) s = .next (with_ { x with csn := .low, receiver := .request }))
      ∧ (x.csn = .high → x.receiver ≠ .idle ∨ x.lrstn = .low ∨ s.resetn = .low →
        exec (.csnFall l) s = .next (with_ { x with csn := .low }))
      ∧ (x.csn = .low → exec (.csnFall l) s = .next s)
      ∧ (x.csn = .low →
        exec (.csnRise l) s = .next (with_ { x with csn := .high, receiver := .idle })
          ∧ exec (.frameDiscard l) s = .next (with_ { x with csn := .high, receiver := .idle }))
      ∧ (x.csn = .high → exec (.csnRise l) s = .next s ∧ exec (.frameDiscard l) s = .next s)
      ∧ (∀ bytes : List Byte, x.receiver = .response bytes →
        exec (.responseEnd l) s = .next (with_ { x with receiver := .done }))
      ∧ (x.lrstn = .low →
        exec (.linkResetRelease l) s = .next (with_ { x with lrstn := .high, receiver := .idle }))
      ∧ exec .warmResetRelease s = .next { s with resetn := .high }
      ∧ (x.receiver = .idle → x.receiver.sdo = .highImpedance)
      ∧ (x.receiver = .request → x.receiver.sdo = .bytes [0x00])
      ∧ (∀ bytes : List Byte, x.receiver = .response bytes → x.receiver.sdo = .bytes ([0x00] ++ bytes))
      ∧ (x.receiver = .done → x.receiver.sdo = .bytes [0xFF])
      ∧ ∀ (c : Instr) (k : Kind) (f : Frame), c.request? = some (k, l, f) → x.receiver = .request →
        ∃ t, ∃ (st : Status) (data : List Byte), exec c s = .next t
          ∧ (t.link l).receiver.sdo = .bytes ([0x00] ++ responseFrame st f.tag data)

/-- R158: a tick raises the counter by 1 and takes 1 ms from what every running timer has left; nothing else changes (that a tick runs
the timers is the model's reading, log 3). An expiry, a deferred end or a grant that its state does not call for changes nothing: the model's reading of
such commands (log 3, log 5, log 6, log 10). -/
def Obligations.TicksRunTimersAndExpiriesWaitForThem : Prop :=
  (∀ s : State,
    let oneLess : Timer → Timer := fun x =>
      match x with
      | .stopped => .stopped
      | .running ms => .running (ms - 1)
    exec .timestampTick s =
      .next
        { s with
          timestamp := s.timestamp + 1
          rails := s.rails.map fun x => { x with timer := oneLess x.timer }
          sessions := s.sessions.map fun x => { x with leaseTimer := oneLess x.leaseTimer }
          supply := { s.supply with holdoff := oneLess s.supply.holdoff } })
    ∧ ((∀ (r : Rail) (s : State), ¬ ((s.rail r).state = .ramping ∧ (s.rail r).timer = .running 0) →
          exec (.rampTimeExpiry r) s = .next s)
        ∧ (∀ (r : Rail) (s : State), ¬ ((s.rail r).state = .slewing ∧ (s.rail r).timer = .running 0) →
          exec (.slewTimeExpiry r) s = .next s)
        ∧ (∀ (r : Rail) (s : State), ¬ ((s.rail r).state = .draining ∧ (s.rail r).timer = .running 0) →
          exec (.drainTimeExpiry r) s = .next s)
        ∧ (∀ (l : Link) (s : State), ¬ ((s.session l).state = .attached ∧ (s.session l).leaseTimer = .running 0) →
          exec (.leaseExpiry l) s = .next s)
        ∧ (∀ s : State, ¬ (s.supply.active = true ∧ s.supply.state = .recovering ∧ s.supply.holdoff = .running 0) →
          exec .holdoffExpiry s = .next s)
        ∧ ∀ (r : Rail) (s : State), Coherent s →
          exec (.deferredOff r) s = .next s ∧ exec (.startGrant r) s = .next s ∧ exec (.raiseGrant r) s = .next s)

/-! ### Encodings (R180, R186, R190) -/

/-- R190: the bytes of every rail record that a frame can carry spell that record again, and the bytes of a WRITE_RAIL that passes its
checks are the bytes that a read returns. The bytes of every part record spell that record again, and six bytes written read back as
they were, but for the bit that is not a field. -/
def Obligations.RecordsRoundTrip : Prop :=
  ((∀ (r : Rail) (x : RailRecord), x.costs.length = x.levelCount.toNat → x.parents.length ≤ 7 →
      recordLengthOk (railRecordBytes r x) = true ∧ parseRailRecord (railRecordBytes r x) = x
        ∧ (railRecordBytes r x).head? = some (BitVec.ofNat 8 r.val))
    ∧ ∀ (r : Rail) (bs : List Byte), bs.head? = some (BitVec.ofNat 8 r.val) → 6 ≤ bs.length →
      recordLengthOk bs = true → railRecordBytes r (parseRailRecord bs) = bs)
    ∧ ((∀ p : PartRecord, parsePartRecord (partRecordBytes p) = p ∧ (partRecordBytes p).length = 6)
        ∧ ∀ b0 b1 b2 b3 b4 b5 : Byte,
          partRecordBytes (parsePartRecord [b0, b1, b2, b3, b4, b5]) = [b0, b1, b2, b3, b4 &&& 0xFE, b5])

/-- R180: the CRC is that of the bits in their order, from 0xFF; a frame whose CRC byte differs from it, or whose length byte is above 32,
is refused with BAD_FRAME; a response ends in the CRC of the bytes before it.
R178: What arrives outside REQUEST is ignored. (A request as a command that carries its frame is the model's choice, log 7; that
COMMIT's SENSE is stored all the same is log 8.)
R186, R188: A frame built by the rules passes the frame checks exactly where its kind allows its number of arguments. -/
def Obligations.CrcGuardsTheFrames : Prop :=
  ((∀ bs : List Byte, crc8 bs = (bs.flatMap bitsOf).foldl crcBit 0xFF)
    ∧ (∀ (k : Kind) (f : Frame),
      f.crc ≠ crc8 (kindByteOf k f.kind :: f.tag :: f.length :: f.args) ∨ 32 < f.length.toNat →
      frameRefusal k f = some .badFrame)
    ∧ (∀ (st : Status) (tag : Byte) (data : List Byte),
      responseFrame st tag data =
        (st.byte :: tag :: BitVec.ofNat 8 data.length :: data)
          ++ [crc8 (st.byte :: tag :: BitVec.ofNat 8 data.length :: data)])
    ∧ ∀ (c : Instr) (k : Kind) (l : Link) (f : Frame) (s : State),
      c.request? = some (k, l, f) → (s.link l).receiver ≠ .request →
      ∃ t, exec c s = .next t ∧ t = { s with sense := t.sense })
    ∧ (∀ (k : Kind) (tag : Byte) (args : List Byte), args.length < 256 →
        ((buildFrame k tag args).wf = true ↔ args.length ≤ 32)
          ∧ (args.length ≤ 32 →
            (frameRefusal k (buildFrame k tag args) = none ↔ k.allowsLength args.length = true)))

/-- R150, R62: a notice is admitted at the tail, stamped, with ALERTn asserted, exactly where the room used, with any slot held in
reserve, is below 24; otherwise it is dropped and the lost-notice count rises, staying at 255. -/
def Obligations.NoticesAreAdmittedOrCounted : Prop :=
  ∀ (s : State) (l : Link) (reserved : Nat) (code : EventCode) (rail : Option Rail) (level : Nat) (d : Detail),
    s.offerNotice l reserved code rail level d =
      { s with
        sessions := s.sessions.set l.val
          (if (s.session l).roomUsed + reserved < 24 then
            { s.session l with
              queue := (s.session l).queue ++ [⟨code, rail, none, level, d, s.timestamp⟩]
              alertn := .low }
          else { s.session l with lost := min ((s.session l).lost + 1) 255 }) l.isLt }

/-! ### The checks of COMMIT (R168, R169) -/

/-- R168, R169: what the checks of COMMIT before the cycle check are, in their order. The part checks come first, then that some rail is
defined, then the four checks of each defined rail, the lowest rail first; the first failure is the one reported; an absent record is
not looked at. -/
def Obligations.CommitChecksComeInOrder : Prop :=
  ∀ s : State,
    let full := s.part.budgetFull.toNat
    let low := s.part.budgetLow.toNat
    let warn := s.part.warnCode.toNat
    let crit := s.part.critCode.toNat
    let holdoff := s.part.holdoffCode.toNat
    let levels := fun r : Rail =>
      1 ≤ (s.record r).levelCount.toNat ∧ (s.record r).levelCount.toNat ≤ 8
        ∧ (8 ≤ r.val → (s.record r).levelCount.toNat = 1)
    let costs := fun r : Rail =>
      (∀ c ∈ (s.record r).costs, c.toNat ≤ 1023)
        ∧ (∀ (i : Nat) (c d : BitVec 16), (s.record r).costs[i]? = some c → (s.record r).costs[i + 1]? = some d →
          c.toNat ≤ d.toNat)
        ∧ ∀ c ∈ (s.record r).costs.getLast?, c.toNat ≤ full
    let parents := fun r : Rail =>
      (s.record r).parents.length ≤ 4
        ∧ (∀ b ∈ (s.record r).parents, ∃ p : Rail, b.toNat = p.val ∧ (s.record p).defined = true ∧ p ≠ r)
        ∧ (s.record r).parents.Nodup
    let times := fun r : Rail =>
      1 ≤ (s.record r).rampTime.toNat ∧ 1 ≤ (s.record r).drainTime.toNat
        ∧ (1 < (s.record r).levelCount.toNat → 1 ≤ (s.record r).slewTime.toNat ∧ (s.record r).slewTime.toNat ≤ 63)
    let good := fun r : Rail => (s.record r).defined = true → levels r ∧ costs r ∧ parents r ∧ times r
    (full = 0 → commitFault s = some (.noBudget, 0xFF))
      ∧ (1 ≤ full → full < low → commitFault s = some (.badLowBudget, 0xFF))
      ∧ (1 ≤ full → low ≤ full → warn ≤ crit → commitFault s = some (.badThresholds, 0xFF))
      ∧ (1 ≤ full → low ≤ full → crit < warn → holdoff = 0 → commitFault s = some (.badHoldoff, 0xFF))
      ∧ (1 ≤ full → low ≤ full → crit < warn → 1 ≤ holdoff →
        ((∀ r : Rail, (s.record r).defined = false) → commitFault s = some (.noRails, 0xFF))
          ∧ (∀ r : Rail, (s.record r).defined = true → (∀ x : Rail, x < r → good x) →
            (¬ levels r → commitFault s = some (.badLevels, BitVec.ofNat 8 r.val))
              ∧ (levels r → ¬ costs r → commitFault s = some (.badCosts, BitVec.ofNat 8 r.val))
              ∧ (levels r → costs r → ¬ parents r → commitFault s = some (.badParent, BitVec.ofNat 8 r.val))
              ∧ (levels r → costs r → parents r → ¬ times r → commitFault s = some (.badTimes, BitVec.ofNat 8 r.val)))
          ∧ ((∃ r : Rail, (s.record r).defined = true) → (∀ r : Rail, good r) →
            commitFault s = none ∨ ∃ r : Rail, commitFault s = some (.cycle, BitVec.ofNat 8 r.val)))
      ∧ (partFault s.part = none ↔ 1 ≤ full ∧ low ≤ full ∧ crit < warn ∧ 1 ≤ holdoff)
      ∧ ∀ r : Rail, railFaultAt s r = none ↔ good r

end
end

