-- ==== Sys2Proof/Laws/State.lean ====
section
/-! SUPPORT. What each write of a bank of the state leaves alone, and what a read gives after it: one lemma for each field and each write. -/

namespace Sys2Proof.Machine

variable (s : State)

/-! ### `State.setRecord` -/

@[simp] theorem State.setRecord_pending (r : Rail) (x : RailRecord) :
    (s.setRecord r x).pending = s.pending := rfl
@[simp] theorem State.setRecord_part (r : Rail) (x : RailRecord) :
    (s.setRecord r x).part = s.part := rfl
@[simp] theorem State.setRecord_lifecycle (r : Rail) (x : RailRecord) :
    (s.setRecord r x).lifecycle = s.lifecycle := rfl
@[simp] theorem State.setRecord_rails (r : Rail) (x : RailRecord) :
    (s.setRecord r x).rails = s.rails := rfl
@[simp] theorem State.setRecord_allocated (r : Rail) (x : RailRecord) :
    (s.setRecord r x).allocated = s.allocated := rfl
@[simp] theorem State.setRecord_limit (r : Rail) (x : RailRecord) :
    (s.setRecord r x).limit = s.limit := rfl
@[simp] theorem State.setRecord_budgetQueue (r : Rail) (x : RailRecord) :
    (s.setRecord r x).budgetQueue = s.budgetQueue := rfl
@[simp] theorem State.setRecord_supply (r : Rail) (x : RailRecord) :
    (s.setRecord r x).supply = s.supply := rfl
@[simp] theorem State.setRecord_sessions (r : Rail) (x : RailRecord) :
    (s.setRecord r x).sessions = s.sessions := rfl
@[simp] theorem State.setRecord_links (r : Rail) (x : RailRecord) :
    (s.setRecord r x).links = s.links := rfl
@[simp] theorem State.setRecord_timestamp (r : Rail) (x : RailRecord) :
    (s.setRecord r x).timestamp = s.timestamp := rfl
@[simp] theorem State.setRecord_resetn (r : Rail) (x : RailRecord) :
    (s.setRecord r x).resetn = s.resetn := rfl
@[simp] theorem State.setRecord_sense (r : Rail) (x : RailRecord) :
    (s.setRecord r x).sense = s.sense := rfl
@[simp] theorem State.setRecord_rail (r : Rail) (x : RailRecord) (r' : Rail) :
    (s.setRecord r x).rail r' = s.rail r' := rfl
@[simp] theorem State.setRecord_claim (r : Rail) (x : RailRecord) (l' : Link) (r' : Rail) :
    (s.setRecord r x).claim l' r' = s.claim l' r' := rfl
@[simp] theorem State.setRecord_session (r : Rail) (x : RailRecord) (l' : Link) :
    (s.setRecord r x).session l' = s.session l' := rfl
@[simp] theorem State.setRecord_outstanding (r : Rail) (x : RailRecord) (l' : Link) (r' : Rail) :
    (s.setRecord r x).outstanding l' r' = s.outstanding l' r' := rfl
@[simp] theorem State.setRecord_link (r : Rail) (x : RailRecord) (l' : Link) :
    (s.setRecord r x).link l' = s.link l' := rfl

/-! ### `State.setRail` -/

@[simp] theorem State.setRail_pending (r : Rail) (x : RailRuntime) :
    (s.setRail r x).pending = s.pending := rfl
@[simp] theorem State.setRail_records (r : Rail) (x : RailRuntime) :
    (s.setRail r x).records = s.records := rfl
@[simp] theorem State.setRail_part (r : Rail) (x : RailRuntime) :
    (s.setRail r x).part = s.part := rfl
@[simp] theorem State.setRail_lifecycle (r : Rail) (x : RailRuntime) :
    (s.setRail r x).lifecycle = s.lifecycle := rfl
@[simp] theorem State.setRail_allocated (r : Rail) (x : RailRuntime) :
    (s.setRail r x).allocated = s.allocated := rfl
@[simp] theorem State.setRail_limit (r : Rail) (x : RailRuntime) :
    (s.setRail r x).limit = s.limit := rfl
@[simp] theorem State.setRail_budgetQueue (r : Rail) (x : RailRuntime) :
    (s.setRail r x).budgetQueue = s.budgetQueue := rfl
@[simp] theorem State.setRail_supply (r : Rail) (x : RailRuntime) :
    (s.setRail r x).supply = s.supply := rfl
@[simp] theorem State.setRail_sessions (r : Rail) (x : RailRuntime) :
    (s.setRail r x).sessions = s.sessions := rfl
@[simp] theorem State.setRail_links (r : Rail) (x : RailRuntime) :
    (s.setRail r x).links = s.links := rfl
@[simp] theorem State.setRail_timestamp (r : Rail) (x : RailRuntime) :
    (s.setRail r x).timestamp = s.timestamp := rfl
@[simp] theorem State.setRail_resetn (r : Rail) (x : RailRuntime) :
    (s.setRail r x).resetn = s.resetn := rfl
@[simp] theorem State.setRail_sense (r : Rail) (x : RailRuntime) :
    (s.setRail r x).sense = s.sense := rfl
@[simp] theorem State.setRail_record (r : Rail) (x : RailRuntime) (r' : Rail) :
    (s.setRail r x).record r' = s.record r' := rfl
@[simp] theorem State.setRail_session (r : Rail) (x : RailRuntime) (l' : Link) :
    (s.setRail r x).session l' = s.session l' := rfl
@[simp] theorem State.setRail_outstanding (r : Rail) (x : RailRuntime) (l' : Link) (r' : Rail) :
    (s.setRail r x).outstanding l' r' = s.outstanding l' r' := rfl
@[simp] theorem State.setRail_link (r : Rail) (x : RailRuntime) (l' : Link) :
    (s.setRail r x).link l' = s.link l' := rfl

/-! ### `State.modRail` -/

@[simp] theorem State.modRail_pending (r : Rail) (f : RailRuntime → RailRuntime) :
    (s.modRail r f).pending = s.pending := rfl
@[simp] theorem State.modRail_records (r : Rail) (f : RailRuntime → RailRuntime) :
    (s.modRail r f).records = s.records := rfl
@[simp] theorem State.modRail_part (r : Rail) (f : RailRuntime → RailRuntime) :
    (s.modRail r f).part = s.part := rfl
@[simp] theorem State.modRail_lifecycle (r : Rail) (f : RailRuntime → RailRuntime) :
    (s.modRail r f).lifecycle = s.lifecycle := rfl
@[simp] theorem State.modRail_allocated (r : Rail) (f : RailRuntime → RailRuntime) :
    (s.modRail r f).allocated = s.allocated := rfl
@[simp] theorem State.modRail_limit (r : Rail) (f : RailRuntime → RailRuntime) :
    (s.modRail r f).limit = s.limit := rfl
@[simp] theorem State.modRail_budgetQueue (r : Rail) (f : RailRuntime → RailRuntime) :
    (s.modRail r f).budgetQueue = s.budgetQueue := rfl
@[simp] theorem State.modRail_supply (r : Rail) (f : RailRuntime → RailRuntime) :
    (s.modRail r f).supply = s.supply := rfl
@[simp] theorem State.modRail_sessions (r : Rail) (f : RailRuntime → RailRuntime) :
    (s.modRail r f).sessions = s.sessions := rfl
@[simp] theorem State.modRail_links (r : Rail) (f : RailRuntime → RailRuntime) :
    (s.modRail r f).links = s.links := rfl
@[simp] theorem State.modRail_timestamp (r : Rail) (f : RailRuntime → RailRuntime) :
    (s.modRail r f).timestamp = s.timestamp := rfl
@[simp] theorem State.modRail_resetn (r : Rail) (f : RailRuntime → RailRuntime) :
    (s.modRail r f).resetn = s.resetn := rfl
@[simp] theorem State.modRail_sense (r : Rail) (f : RailRuntime → RailRuntime) :
    (s.modRail r f).sense = s.sense := rfl
@[simp] theorem State.modRail_record (r : Rail) (f : RailRuntime → RailRuntime) (r' : Rail) :
    (s.modRail r f).record r' = s.record r' := rfl
@[simp] theorem State.modRail_session (r : Rail) (f : RailRuntime → RailRuntime) (l' : Link) :
    (s.modRail r f).session l' = s.session l' := rfl
@[simp] theorem State.modRail_outstanding (r : Rail) (f : RailRuntime → RailRuntime) (l' : Link) (r' : Rail) :
    (s.modRail r f).outstanding l' r' = s.outstanding l' r' := rfl
@[simp] theorem State.modRail_link (r : Rail) (f : RailRuntime → RailRuntime) (l' : Link) :
    (s.modRail r f).link l' = s.link l' := rfl

/-! ### `State.setClaim` -/

@[simp] theorem State.setClaim_pending (l : Link) (r : Rail) (v : Nat) :
    (s.setClaim l r v).pending = s.pending := rfl
@[simp] theorem State.setClaim_records (l : Link) (r : Rail) (v : Nat) :
    (s.setClaim l r v).records = s.records := rfl
@[simp] theorem State.setClaim_part (l : Link) (r : Rail) (v : Nat) :
    (s.setClaim l r v).part = s.part := rfl
@[simp] theorem State.setClaim_lifecycle (l : Link) (r : Rail) (v : Nat) :
    (s.setClaim l r v).lifecycle = s.lifecycle := rfl
@[simp] theorem State.setClaim_allocated (l : Link) (r : Rail) (v : Nat) :
    (s.setClaim l r v).allocated = s.allocated := rfl
@[simp] theorem State.setClaim_limit (l : Link) (r : Rail) (v : Nat) :
    (s.setClaim l r v).limit = s.limit := rfl
@[simp] theorem State.setClaim_budgetQueue (l : Link) (r : Rail) (v : Nat) :
    (s.setClaim l r v).budgetQueue = s.budgetQueue := rfl
@[simp] theorem State.setClaim_supply (l : Link) (r : Rail) (v : Nat) :
    (s.setClaim l r v).supply = s.supply := rfl
@[simp] theorem State.setClaim_sessions (l : Link) (r : Rail) (v : Nat) :
    (s.setClaim l r v).sessions = s.sessions := rfl
@[simp] theorem State.setClaim_links (l : Link) (r : Rail) (v : Nat) :
    (s.setClaim l r v).links = s.links := rfl
@[simp] theorem State.setClaim_timestamp (l : Link) (r : Rail) (v : Nat) :
    (s.setClaim l r v).timestamp = s.timestamp := rfl
@[simp] theorem State.setClaim_resetn (l : Link) (r : Rail) (v : Nat) :
    (s.setClaim l r v).resetn = s.resetn := rfl
@[simp] theorem State.setClaim_sense (l : Link) (r : Rail) (v : Nat) :
    (s.setClaim l r v).sense = s.sense := rfl
@[simp] theorem State.setClaim_record (l : Link) (r : Rail) (v : Nat) (r' : Rail) :
    (s.setClaim l r v).record r' = s.record r' := rfl
@[simp] theorem State.setClaim_session (l : Link) (r : Rail) (v : Nat) (l' : Link) :
    (s.setClaim l r v).session l' = s.session l' := rfl
@[simp] theorem State.setClaim_outstanding (l : Link) (r : Rail) (v : Nat) (l' : Link) (r' : Rail) :
    (s.setClaim l r v).outstanding l' r' = s.outstanding l' r' := rfl
@[simp] theorem State.setClaim_link (l : Link) (r : Rail) (v : Nat) (l' : Link) :
    (s.setClaim l r v).link l' = s.link l' := rfl

/-! ### `State.modSession` -/

@[simp] theorem State.modSession_pending (l : Link) (f : Session → Session) :
    (s.modSession l f).pending = s.pending := rfl
@[simp] theorem State.modSession_records (l : Link) (f : Session → Session) :
    (s.modSession l f).records = s.records := rfl
@[simp] theorem State.modSession_part (l : Link) (f : Session → Session) :
    (s.modSession l f).part = s.part := rfl
@[simp] theorem State.modSession_lifecycle (l : Link) (f : Session → Session) :
    (s.modSession l f).lifecycle = s.lifecycle := rfl
@[simp] theorem State.modSession_rails (l : Link) (f : Session → Session) :
    (s.modSession l f).rails = s.rails := rfl
@[simp] theorem State.modSession_allocated (l : Link) (f : Session → Session) :
    (s.modSession l f).allocated = s.allocated := rfl
@[simp] theorem State.modSession_limit (l : Link) (f : Session → Session) :
    (s.modSession l f).limit = s.limit := rfl
@[simp] theorem State.modSession_budgetQueue (l : Link) (f : Session → Session) :
    (s.modSession l f).budgetQueue = s.budgetQueue := rfl
@[simp] theorem State.modSession_supply (l : Link) (f : Session → Session) :
    (s.modSession l f).supply = s.supply := rfl
@[simp] theorem State.modSession_links (l : Link) (f : Session → Session) :
    (s.modSession l f).links = s.links := rfl
@[simp] theorem State.modSession_timestamp (l : Link) (f : Session → Session) :
    (s.modSession l f).timestamp = s.timestamp := rfl
@[simp] theorem State.modSession_resetn (l : Link) (f : Session → Session) :
    (s.modSession l f).resetn = s.resetn := rfl
@[simp] theorem State.modSession_sense (l : Link) (f : Session → Session) :
    (s.modSession l f).sense = s.sense := rfl
@[simp] theorem State.modSession_record (l : Link) (f : Session → Session) (r' : Rail) :
    (s.modSession l f).record r' = s.record r' := rfl
@[simp] theorem State.modSession_rail (l : Link) (f : Session → Session) (r' : Rail) :
    (s.modSession l f).rail r' = s.rail r' := rfl
@[simp] theorem State.modSession_claim (l : Link) (f : Session → Session) (l' : Link) (r' : Rail) :
    (s.modSession l f).claim l' r' = s.claim l' r' := rfl
@[simp] theorem State.modSession_link (l : Link) (f : Session → Session) (l' : Link) :
    (s.modSession l f).link l' = s.link l' := rfl

/-! ### `State.setOutstanding` -/

@[simp] theorem State.setOutstanding_pending (l : Link) (r : Rail) (o : Option Outstanding) :
    (s.setOutstanding l r o).pending = s.pending := rfl
@[simp] theorem State.setOutstanding_records (l : Link) (r : Rail) (o : Option Outstanding) :
    (s.setOutstanding l r o).records = s.records := rfl
@[simp] theorem State.setOutstanding_part (l : Link) (r : Rail) (o : Option Outstanding) :
    (s.setOutstanding l r o).part = s.part := rfl
@[simp] theorem State.setOutstanding_lifecycle (l : Link) (r : Rail) (o : Option Outstanding) :
    (s.setOutstanding l r o).lifecycle = s.lifecycle := rfl
@[simp] theorem State.setOutstanding_rails (l : Link) (r : Rail) (o : Option Outstanding) :
    (s.setOutstanding l r o).rails = s.rails := rfl
@[simp] theorem State.setOutstanding_allocated (l : Link) (r : Rail) (o : Option Outstanding) :
    (s.setOutstanding l r o).allocated = s.allocated := rfl
@[simp] theorem State.setOutstanding_limit (l : Link) (r : Rail) (o : Option Outstanding) :
    (s.setOutstanding l r o).limit = s.limit := rfl
@[simp] theorem State.setOutstanding_budgetQueue (l : Link) (r : Rail) (o : Option Outstanding) :
    (s.setOutstanding l r o).budgetQueue = s.budgetQueue := rfl
@[simp] theorem State.setOutstanding_supply (l : Link) (r : Rail) (o : Option Outstanding) :
    (s.setOutstanding l r o).supply = s.supply := rfl
@[simp] theorem State.setOutstanding_links (l : Link) (r : Rail) (o : Option Outstanding) :
    (s.setOutstanding l r o).links = s.links := rfl
@[simp] theorem State.setOutstanding_timestamp (l : Link) (r : Rail) (o : Option Outstanding) :
    (s.setOutstanding l r o).timestamp = s.timestamp := rfl
@[simp] theorem State.setOutstanding_resetn (l : Link) (r : Rail) (o : Option Outstanding) :
    (s.setOutstanding l r o).resetn = s.resetn := rfl
@[simp] theorem State.setOutstanding_sense (l : Link) (r : Rail) (o : Option Outstanding) :
    (s.setOutstanding l r o).sense = s.sense := rfl
@[simp] theorem State.setOutstanding_record (l : Link) (r : Rail) (o : Option Outstanding) (r' : Rail) :
    (s.setOutstanding l r o).record r' = s.record r' := rfl
@[simp] theorem State.setOutstanding_rail (l : Link) (r : Rail) (o : Option Outstanding) (r' : Rail) :
    (s.setOutstanding l r o).rail r' = s.rail r' := rfl
@[simp] theorem State.setOutstanding_claim (l : Link) (r : Rail) (o : Option Outstanding) (l' : Link) (r' : Rail) :
    (s.setOutstanding l r o).claim l' r' = s.claim l' r' := rfl
@[simp] theorem State.setOutstanding_link (l : Link) (r : Rail) (o : Option Outstanding) (l' : Link) :
    (s.setOutstanding l r o).link l' = s.link l' := rfl

/-! ### `State.modLink` -/

@[simp] theorem State.modLink_pending (l : Link) (f : LinkPort → LinkPort) :
    (s.modLink l f).pending = s.pending := rfl
@[simp] theorem State.modLink_records (l : Link) (f : LinkPort → LinkPort) :
    (s.modLink l f).records = s.records := rfl
@[simp] theorem State.modLink_part (l : Link) (f : LinkPort → LinkPort) :
    (s.modLink l f).part = s.part := rfl
@[simp] theorem State.modLink_lifecycle (l : Link) (f : LinkPort → LinkPort) :
    (s.modLink l f).lifecycle = s.lifecycle := rfl
@[simp] theorem State.modLink_rails (l : Link) (f : LinkPort → LinkPort) :
    (s.modLink l f).rails = s.rails := rfl
@[simp] theorem State.modLink_allocated (l : Link) (f : LinkPort → LinkPort) :
    (s.modLink l f).allocated = s.allocated := rfl
@[simp] theorem State.modLink_limit (l : Link) (f : LinkPort → LinkPort) :
    (s.modLink l f).limit = s.limit := rfl
@[simp] theorem State.modLink_budgetQueue (l : Link) (f : LinkPort → LinkPort) :
    (s.modLink l f).budgetQueue = s.budgetQueue := rfl
@[simp] theorem State.modLink_supply (l : Link) (f : LinkPort → LinkPort) :
    (s.modLink l f).supply = s.supply := rfl
@[simp] theorem State.modLink_sessions (l : Link) (f : LinkPort → LinkPort) :
    (s.modLink l f).sessions = s.sessions := rfl
@[simp] theorem State.modLink_timestamp (l : Link) (f : LinkPort → LinkPort) :
    (s.modLink l f).timestamp = s.timestamp := rfl
@[simp] theorem State.modLink_resetn (l : Link) (f : LinkPort → LinkPort) :
    (s.modLink l f).resetn = s.resetn := rfl
@[simp] theorem State.modLink_sense (l : Link) (f : LinkPort → LinkPort) :
    (s.modLink l f).sense = s.sense := rfl
@[simp] theorem State.modLink_record (l : Link) (f : LinkPort → LinkPort) (r' : Rail) :
    (s.modLink l f).record r' = s.record r' := rfl
@[simp] theorem State.modLink_rail (l : Link) (f : LinkPort → LinkPort) (r' : Rail) :
    (s.modLink l f).rail r' = s.rail r' := rfl
@[simp] theorem State.modLink_claim (l : Link) (f : LinkPort → LinkPort) (l' : Link) (r' : Rail) :
    (s.modLink l f).claim l' r' = s.claim l' r' := rfl
@[simp] theorem State.modLink_session (l : Link) (f : LinkPort → LinkPort) (l' : Link) :
    (s.modLink l f).session l' = s.session l' := rfl
@[simp] theorem State.modLink_outstanding (l : Link) (f : LinkPort → LinkPort) (l' : Link) (r' : Rail) :
    (s.modLink l f).outstanding l' r' = s.outstanding l' r' := rfl

/-! ### Reading what was written -/

theorem get_set {α : Type} {n : Nat} (v : Vector α n) (i j : Fin n) (x : α) :
    (v.set i.val x i.isLt).get j = if j = i then x else v.get j := by
  have h : (v.set i.val x i.isLt)[j.val] = if i.val = j.val then x else v[j.val] := Vector.getElem_set ..
  simp only [Fin.ext_iff, eq_comm (a := j.val)]
  exact h

theorem get_map {α β : Type} {n : Nat} (f : α → β) (v : Vector α n) (i : Fin n) : (v.map f).get i = f (v.get i) :=
  Vector.getElem_map f i.isLt

theorem get_ofFn {α : Type} {n : Nat} (f : Fin n → α) (i : Fin n) : (Vector.ofFn f).get i = f i :=
  Vector.getElem_ofFn i.isLt

@[simp] theorem State.record_setRecord (r r' : Rail) (x : RailRecord) :
    (s.setRecord r x).record r' = if r' = r then x else s.record r' := get_set ..

@[simp] theorem State.rail_setRail (r r' : Rail) (x : RailRuntime) :
    (s.setRail r x).rail r' = if r' = r then x else s.rail r' := get_set ..

@[simp] theorem State.rail_modRail (r r' : Rail) (f : RailRuntime → RailRuntime) :
    (s.modRail r f).rail r' = if r' = r then f (s.rail r) else s.rail r' := get_set ..

@[simp] theorem State.session_modSession (l l' : Link) (f : Session → Session) :
    (s.modSession l f).session l' = if l' = l then f (s.session l) else s.session l' := get_set ..

@[simp] theorem State.link_modLink (l l' : Link) (f : LinkPort → LinkPort) :
    (s.modLink l f).link l' = if l' = l then f (s.link l) else s.link l' := get_set ..

@[simp] theorem State.claim_setClaim (l l' : Link) (r r' : Rail) (v : Nat) :
    (s.setClaim l r v).claim l' r' = if l' = l ∧ r' = r then v else s.claim l' r' := by
  unfold State.setClaim State.claim
  rw [State.rail_modRail]
  by_cases hr : r' = r
  · subst hr
    simp only [if_true, get_set, and_true]
  · simp only [hr, and_false, if_false]

@[simp] theorem State.outstanding_setOutstanding (l l' : Link) (r r' : Rail) (o : Option Outstanding) :
    (s.setOutstanding l r o).outstanding l' r' = if l' = l ∧ r' = r then o else s.outstanding l' r' := by
  unfold State.setOutstanding State.outstanding
  rw [State.session_modSession]
  by_cases hl : l' = l
  · subst hl
    simp only [if_true, get_set, true_and]
  · simp only [hl, false_and, if_false]

/-! ### Two states are equal when every bank reads the same -/

theorem vector_eq_of_get {α : Type} {n : Nat} {v w : Vector α n} (h : ∀ i : Fin n, v.get i = w.get i) : v = w := by
  ext i hi
  exact h ⟨i, hi⟩

theorem State.rails_eq {s t : State} (h : ∀ r : Rail, s.rail r = t.rail r) : s.rails = t.rails := vector_eq_of_get h

theorem State.sessions_eq {s t : State} (h : ∀ l : Link, s.session l = t.session l) : s.sessions = t.sessions :=
  vector_eq_of_get h

theorem State.links_eq {s t : State} (h : ∀ l : Link, s.link l = t.link l) : s.links = t.links := vector_eq_of_get h

theorem mem_allRails (r : Rail) : r ∈ allRails := by revert r; decide

theorem mem_allLinks (l : Link) : l ∈ allLinks := by revert l; decide

theorem nodup_allRails : allRails.Nodup := by decide

theorem nodup_allLinks : allLinks.Nodup := by decide

end Sys2Proof.Machine
end

