-- ==== Sys2Proof/Laws/Rails.lean ====
section
/-! SUPPORT. What the operations on rails and on the budget arbiter can do: for each, what it writes, and what it leaves alone. -/

namespace Sys2Proof.Machine

/-! ### The frame of a write to the rails and the arbiter -/

/-- From `s` to `t` nothing differs but the runtime records, allocated and the budget wait queue. -/
def OnlyRails (s t : State) : Prop :=
  t = { s with rails := t.rails, allocated := t.allocated, budgetQueue := t.budgetQueue }

theorem OnlyRails.refl (s : State) : OnlyRails s s := rfl

theorem OnlyRails.trans {s t u : State} (h : OnlyRails s t) (h' : OnlyRails t u) : OnlyRails s u := by
  unfold OnlyRails at *
  rw [h', h]

theorem OnlyRails.foldl {α : Type} {f : State → α → State} (h : ∀ s a, OnlyRails s (f s a)) (xs : List α) (s : State) :
    OnlyRails s (xs.foldl f s) := by
  induction xs generalizing s with
  | nil => exact .refl s
  | cons a xs ih => exact (h s a).trans (ih _)

section
variable {s t : State} (h : OnlyRails s t)
include h

theorem OnlyRails.pending : t.pending = s.pending := by rw [h]
theorem OnlyRails.records : t.records = s.records := by rw [h]
theorem OnlyRails.part : t.part = s.part := by rw [h]
theorem OnlyRails.lifecycle : t.lifecycle = s.lifecycle := by rw [h]
theorem OnlyRails.limit : t.limit = s.limit := by rw [h]
theorem OnlyRails.supply : t.supply = s.supply := by rw [h]
theorem OnlyRails.sessions : t.sessions = s.sessions := by rw [h]
theorem OnlyRails.links : t.links = s.links := by rw [h]
theorem OnlyRails.timestamp : t.timestamp = s.timestamp := by rw [h]
theorem OnlyRails.resetn : t.resetn = s.resetn := by rw [h]
theorem OnlyRails.sense : t.sense = s.sense := by rw [h]
theorem OnlyRails.record (r : Rail) : t.record r = s.record r := by unfold State.record; rw [h.records]
theorem OnlyRails.parentsOf (r : Rail) : t.parentsOf r = s.parentsOf r := by unfold State.parentsOf; simp only [h.record]
theorem OnlyRails.session (l : Link) : t.session l = s.session l := by unfold State.session; rw [h.sessions]
theorem OnlyRails.link (l : Link) : t.link l = s.link l := by unfold State.link; rw [h.links]

end

/-! ### All rails at once -/

theorem foldl_modRail_rail (f : Rail → RailRuntime → RailRuntime) {rs : List Rail} (hn : rs.Nodup) (s : State) (r : Rail) :
    (rs.foldl (fun t x => t.modRail x (f x)) s).rail r = if r ∈ rs then f r (s.rail r) else s.rail r := by
  induction rs generalizing s with
  | nil => simp
  | cons a rs ih =>
    obtain ⟨ha, hn⟩ := List.nodup_cons.mp hn
    rw [List.foldl_cons, ih hn, State.rail_modRail]
    by_cases hr : r = a
    · subst hr
      simp [ha]
    · simp [hr]

/-- `modRails` applies its function to every runtime record. -/
@[simp] theorem State.rail_modRails (s : State) (f : Rail → RailRuntime → RailRuntime) (r : Rail) :
    (s.modRails f).rail r = f r (s.rail r) := by
  rw [State.modRails, foldl_modRail_rail f nodup_allRails, if_pos (mem_allRails r)]

theorem onlyRails_modRail (s : State) (r : Rail) (f : RailRuntime → RailRuntime) : OnlyRails s (s.modRail r f) := rfl

theorem onlyRails_modRails (s : State) (f : Rail → RailRuntime → RailRuntime) : OnlyRails s (s.modRails f) :=
  .foldl (fun t r => onlyRails_modRail t r (f r)) _ s

theorem modRails_allocated (s : State) (f : Rail → RailRuntime → RailRuntime) : (s.modRails f).allocated = s.allocated := by
  have h : ∀ (rs : List Rail) (t : State), (rs.foldl (fun t x => t.modRail x (f x)) t).allocated = t.allocated := by
    intro rs
    induction rs with
    | nil => exact fun _ => rfl
    | cons a rs ih => exact fun t => (ih _).trans rfl
  exact h _ _

theorem modRails_budgetQueue (s : State) (f : Rail → RailRuntime → RailRuntime) :
    (s.modRails f).budgetQueue = s.budgetQueue := by
  have h : ∀ (rs : List Rail) (t : State), (rs.foldl (fun t x => t.modRail x (f x)) t).budgetQueue = t.budgetQueue := by
    intro rs
    induction rs with
    | nil => exact fun _ => rfl
    | cons a rs ih => exact fun t => (ih _).trans rfl
  exact h _ _

/-- `modRails` writes the runtime records alone, each by its function. -/
theorem State.modRails_eq (s : State) (f : Rail → RailRuntime → RailRuntime) :
    s.modRails f = { s with rails := Vector.ofFn fun r => f r (s.rail r) } := by
  have h : (s.modRails f).rails = Vector.ofFn fun r => f r (s.rail r) := vector_eq_of_get fun r =>
    (s.rail_modRails f r).trans (get_ofFn (fun r => f r (s.rail r)) r).symm
  have h' := onlyRails_modRails s f
  rw [OnlyRails, modRails_allocated, modRails_budgetQueue, h] at h'
  exact h'

/-! ### A rail's lines and holds -/

@[simp] theorem driveLines_en (r : Rail) (x : RailRuntime) : (driveLines r x).en = enLine x.state := rfl
@[simp] theorem driveLines_lvl (r : Rail) (x : RailRuntime) : (driveLines r x).lvl = lvlCode r x.level := rfl
@[simp] theorem driveLines_state (r : Rail) (x : RailRuntime) : (driveLines r x).state = x.state := rfl
@[simp] theorem driveLines_level (r : Rail) (x : RailRuntime) : (driveLines r x).level = x.level := rfl
@[simp] theorem driveLines_target (r : Rail) (x : RailRuntime) : (driveLines r x).target = x.target := rfl
@[simp] theorem driveLines_claims (r : Rail) (x : RailRuntime) : (driveLines r x).claims = x.claims := rfl
@[simp] theorem driveLines_holdSet (r : Rail) (x : RailRuntime) : (driveLines r x).holdSet = x.holdSet := rfl
@[simp] theorem driveLines_suspended (r : Rail) (x : RailRuntime) : (driveLines r x).suspended = x.suspended := rfl
@[simp] theorem driveLines_timer (r : Rail) (x : RailRuntime) : (driveLines r x).timer = x.timer := rfl
@[simp] theorem driveLines_slewOrigin (r : Rail) (x : RailRuntime) : (driveLines r x).slewOrigin = x.slewOrigin := rfl
@[simp] theorem driveLines_drainFinished (r : Rail) (x : RailRuntime) :
    (driveLines r x).drainFinished = x.drainFinished := rfl
@[simp] theorem driveLines_drainCause (r : Rail) (x : RailRuntime) : (driveLines r x).drainCause = x.drainCause := rfl
@[simp] theorem driveLines_faultLatch (r : Rail) (x : RailRuntime) : (driveLines r x).faultLatch = x.faultLatch := rfl
@[simp] theorem driveLines_faultKind (r : Rail) (x : RailRuntime) : (driveLines r x).faultKind = x.faultKind := rfl
@[simp] theorem driveLines_faultCount (r : Rail) (x : RailRuntime) : (driveLines r x).faultCount = x.faultCount := rfl
@[simp] theorem driveLines_held (r : Rail) (x : RailRuntime) : (driveLines r x).held = x.held := rfl
@[simp] theorem driveLines_pg (r : Rail) (x : RailRuntime) : (driveLines r x).pg = x.pg := rfl

theorem onlyRails_syncHolds (s : State) (r : Rail) : OnlyRails s (s.syncHolds r) :=
  .foldl (fun t p => onlyRails_modRail t p _) _ s

theorem foldl_hold_rail (b : Bool) (r : Rail) (ps : List Rail) (s : State) (q : Rail) :
    (ps.foldl (fun t p => t.modRail p fun y => { y with holdSet := y.holdSet.set r.val b r.isLt }) s).rail q =
      if q ∈ ps then { s.rail q with holdSet := (s.rail q).holdSet.set r.val b r.isLt } else s.rail q := by
  induction ps generalizing s with
  | nil => simp
  | cons p ps ih =>
    rw [List.foldl_cons, ih, State.rail_modRail]
    by_cases hq : q = p
    · subst hq
      by_cases hm : q ∈ ps <;> simp [hm]
    · simp [hq]

/-- `syncHolds` writes the bit of rail `r` in the hold set of each of its parents, and no other record. -/
theorem State.rail_syncHolds (s : State) (r q : Rail) :
    (s.syncHolds r).rail q =
      if q ∈ s.parentsOf r then
        { s.rail q with holdSet := (s.rail q).holdSet.set r.val (s.rail r).state.holding r.isLt }
      else s.rail q :=
  foldl_hold_rail ..

theorem syncHolds_allocated (s : State) (r : Rail) : (s.syncHolds r).allocated = s.allocated := by
  have h : ∀ (b : Bool) (ps : List Rail) (t : State),
      (ps.foldl (fun t p => t.modRail p fun y => { y with holdSet := y.holdSet.set r.val b r.isLt }) t).allocated
        = t.allocated := by
    intro b ps
    induction ps with
    | nil => exact fun _ => rfl
    | cons a ps ih => exact fun t => (ih _).trans rfl
  exact h ..

theorem syncHolds_budgetQueue (s : State) (r : Rail) : (s.syncHolds r).budgetQueue = s.budgetQueue := by
  have h : ∀ (b : Bool) (ps : List Rail) (t : State),
      (ps.foldl (fun t p => t.modRail p fun y => { y with holdSet := y.holdSet.set r.val b r.isLt }) t).budgetQueue
        = t.budgetQueue := by
    intro b ps
    induction ps with
    | nil => exact fun _ => rfl
    | cons a ps ih => exact fun t => (ih _).trans rfl
  exact h ..

theorem onlyRails_moveRail (s : State) (r : Rail) (f : RailRuntime → RailRuntime) : OnlyRails s (s.moveRail r f) :=
  (onlyRails_modRail s r _).trans (onlyRails_syncHolds _ r)

@[simp] theorem moveRail_allocated (s : State) (r : Rail) (f : RailRuntime → RailRuntime) :
    (s.moveRail r f).allocated = s.allocated := syncHolds_allocated ..

@[simp] theorem moveRail_budgetQueue (s : State) (r : Rail) (f : RailRuntime → RailRuntime) :
    (s.moveRail r f).budgetQueue = s.budgetQueue := syncHolds_budgetQueue ..

/-- `moveRail` gives rail `r` the record that `f` makes of it with the lines that follow, and gives each of its parents the
hold that its new state asks for; no other record changes. -/
theorem State.rail_moveRail (s : State) (r q : Rail) (f : RailRuntime → RailRuntime) :
    (s.moveRail r f).rail q =
      let x := if q = r then driveLines r (f (s.rail r)) else s.rail q
      if q ∈ s.parentsOf r then
        { x with holdSet := x.holdSet.set r.val (f (s.rail r)).state.holding r.isLt }
      else x := by
  rw [State.moveRail, State.rail_syncHolds]
  simp only [State.rail_modRail, if_true, driveLines_state]
  rfl

/-- `moveRail` gives a rail that is not among its own parents the record that `f` makes of it, with the lines that follow. -/
theorem State.rail_moveRail_self (s : State) (r : Rail) (f : RailRuntime → RailRuntime) (h : r ∉ s.parentsOf r) :
    (s.moveRail r f).rail r = driveLines r (f (s.rail r)) := by
  simp [State.rail_moveRail, h]

/-- But for its hold set, `moveRail` leaves the record of every other rail as it is. -/
theorem State.rail_moveRail_other (s : State) (r q : Rail) (f : RailRuntime → RailRuntime) (h : q ≠ r) :
    (s.moveRail r f).rail q = { s.rail q with holdSet := ((s.moveRail r f).rail q).holdSet } := by
  rw [State.rail_moveRail]
  simp only [if_neg h]
  split <;> rfl

/-! ### The budget arbiter's amounts -/

theorem onlyRails_takeBudget (s : State) (r : Rail) (n : Nat) : OnlyRails s (s.takeBudget r n) := rfl

theorem onlyRails_giveBack (s : State) (r : Rail) (n : Nat) : OnlyRails s (s.giveBack r n) := rfl

theorem onlyRails_withdraw (s : State) (r : Rail) : OnlyRails s (s.withdraw r) := rfl

@[simp] theorem takeBudget_allocated (s : State) (r : Rail) (n : Nat) :
    (s.takeBudget r n).allocated = s.allocated + n := rfl

@[simp] theorem takeBudget_budgetQueue (s : State) (r : Rail) (n : Nat) :
    (s.takeBudget r n).budgetQueue = s.budgetQueue := rfl

/-- `takeBudget` raises the budget held by the one rail. -/
theorem State.rail_takeBudget (s : State) (r q : Rail) (n : Nat) :
    (s.takeBudget r n).rail q = if q = r then { s.rail r with held := (s.rail r).held + n } else s.rail q :=
  s.rail_modRail r q fun x => { x with held := x.held + n }

@[simp] theorem giveBack_allocated (s : State) (r : Rail) (n : Nat) :
    (s.giveBack r n).allocated = s.allocated - ((s.rail r).held - min (s.rail r).held n) := rfl

@[simp] theorem giveBack_budgetQueue (s : State) (r : Rail) (n : Nat) :
    (s.giveBack r n).budgetQueue = s.budgetQueue := rfl

/-- `giveBack` lowers the budget held by the one rail to what it keeps. -/
theorem State.rail_giveBack (s : State) (r q : Rail) (n : Nat) :
    (s.giveBack r n).rail q = if q = r then { s.rail r with held := min (s.rail r).held n } else s.rail q :=
  s.rail_modRail r q fun x => { x with held := min x.held n }

@[simp] theorem withdraw_allocated (s : State) (r : Rail) : (s.withdraw r).allocated = s.allocated := rfl

@[simp] theorem withdraw_rail (s : State) (r q : Rail) : (s.withdraw r).rail q = s.rail q := rfl

@[simp] theorem withdraw_record (s : State) (r q : Rail) : (s.withdraw r).record q = s.record q := rfl

/-- `withdraw` leaves no entry of the rail. -/
theorem State.queued_withdraw (s : State) (r : Rail) : (s.withdraw r).queued r = false := by
  simp [State.queued, State.withdraw]

/-- `withdraw` leaves the entries of the other rails. -/
theorem State.mem_withdraw (s : State) (r : Rail) (q : QueueEntry) :
    q ∈ (s.withdraw r).budgetQueue ↔ q ∈ s.budgetQueue ∧ q.rail ≠ r := by
  simp [State.withdraw]

/-! ### A rail's moves between its states -/

theorem onlyRails_enterWaiting (s : State) (r : Rail) : OnlyRails s (s.enterWaiting r) := onlyRails_moveRail ..

theorem onlyRails_leaveWaiting (s : State) (r : Rail) : OnlyRails s (s.leaveWaiting r) :=
  (onlyRails_withdraw s r).trans (onlyRails_moveRail ..)

theorem onlyRails_enterRamping (s : State) (r : Rail) : OnlyRails s (s.enterRamping r) := onlyRails_moveRail ..

theorem onlyRails_enterSlewing (s : State) (r : Rail) : OnlyRails s (s.enterSlewing r) :=
  (onlyRails_withdraw s r).trans (onlyRails_moveRail ..)

theorem onlyRails_enterDraining (s : State) (r : Rail) (c : DrainCause) : OnlyRails s (s.enterDraining r c) := by
  unfold State.enterDraining
  refine (onlyRails_withdraw s r).trans (.trans ?_ (onlyRails_moveRail ..))
  split
  · exact onlyRails_giveBack ..
  · exact .refl _

theorem onlyRails_callBackSlew (s : State) (r : Rail) (level : Nat) : OnlyRails s (s.callBackSlew r level) :=
  onlyRails_moveRail ..

theorem onlyRails_enterOn (s : State) (r : Rail) : OnlyRails s (s.enterOn r) := by
  unfold State.enterOn
  refine .trans ?_ (onlyRails_moveRail ..)
  split
  · exact onlyRails_giveBack ..
  · exact .refl _

theorem onlyRails_finishDrain (s : State) (r : Rail) : OnlyRails s (s.finishDrain r) :=
  (onlyRails_giveBack s r 0).trans (onlyRails_moveRail ..)

theorem onlyRails_enterFault (s : State) (r : Rail) (k : FaultKind) : OnlyRails s (s.enterFault r k) :=
  ((onlyRails_withdraw s r).trans (onlyRails_giveBack _ r 0)).trans (onlyRails_moveRail ..)

theorem onlyRails_drainRunning (s : State) (c : DrainCause) : OnlyRails s (s.drainRunning c) :=
  .foldl (fun t r => by
    split
    · exact onlyRails_enterDraining ..
    · exact .refl _) _ s

theorem onlyRails_setSuspended (s : State) (b : Bool) : OnlyRails s (s.setSuspended b) :=
  .foldl (fun t r => by
    split
    · exact onlyRails_modRail ..
    · exact .refl _) _ s

theorem onlyRails_clearClaims (s : State) (l : Link) : OnlyRails s (s.clearClaims l) :=
  .foldl (fun t r => onlyRails_modRail t r _) _ s

/-- A rail that moves between its states keeps its claims, its suspended flag, its filtered PG and its target. -/
theorem State.rail_moveRail_kept (s : State) (r q : Rail) (f : RailRuntime → RailRuntime)
    (h : (f (s.rail r)).claims = (s.rail r).claims ∧ (f (s.rail r)).suspended = (s.rail r).suspended
      ∧ (f (s.rail r)).pg = (s.rail r).pg ∧ (f (s.rail r)).target = (s.rail r).target) :
    ((s.moveRail r f).rail q).claims = (s.rail q).claims ∧ ((s.moveRail r f).rail q).suspended = (s.rail q).suspended
      ∧ ((s.moveRail r f).rail q).pg = (s.rail q).pg ∧ ((s.moveRail r f).rail q).target = (s.rail q).target := by
  rw [State.rail_moveRail]
  by_cases hq : q = r
  · subst hq
    simp only [if_true]
    split <;> exact h
  · simp only [if_neg hq]
    split <;> exact ⟨rfl, rfl, rfl, rfl⟩

/-! ### The suspended flags and the claims of one session -/

/-- `setSuspended` writes the flag of every defined SHED rail, and nothing else of any record. -/
theorem State.rail_setSuspended (s : State) (b : Bool) (r : Rail) :
    (s.setSuspended b).rail r =
      if (s.record r).defined = true ∧ (s.record r).shedClass = .shed then { s.rail r with suspended := b }
      else s.rail r := by
  have h : ∀ (rs : List Rail), rs.Nodup → ∀ t : State, (∀ x, t.record x = s.record x) →
      (rs.foldl
        (fun t r =>
          if (t.record r).defined ∧ (t.record r).shedClass = .shed then t.modRail r fun x => { x with suspended := b }
          else t) t).rail r =
        if r ∈ rs ∧ (s.record r).defined = true ∧ (s.record r).shedClass = .shed then { t.rail r with suspended := b }
        else t.rail r := by
    intro rs
    induction rs with
    | nil => simp
    | cons a rs ih =>
      intro hn t ht
      obtain ⟨ha, hn⟩ := List.nodup_cons.mp hn
      rw [List.foldl_cons, ih hn _ (by intro x; split <;> simp [ht])]
      rw [ht a]
      by_cases hr : r = a
      · subst hr
        by_cases hd : (s.record r).defined = true ∧ (s.record r).shedClass = .shed <;> simp [ha, hd]
      · by_cases hd : (s.record a).defined = true ∧ (s.record a).shedClass = .shed <;> simp [hr, hd]
  unfold State.setSuspended
  rw [h _ nodup_allRails s fun _ => rfl]
  simp [mem_allRails]

/-- `clearClaims` sets the entry of one session to 0 in every claim vector, and writes nothing else of any record. -/
theorem State.rail_clearClaims (s : State) (l : Link) (r : Rail) :
    (s.clearClaims l).rail r = { s.rail r with claims := (s.rail r).claims.set l.val 0 l.isLt } := by
  have h := foldl_modRail_rail (fun _ x => { x with claims := x.claims.set l.val 0 l.isLt }) nodup_allRails s r
  rw [if_pos (mem_allRails r)] at h
  exact h

/-! ### The queue -/

/-- An amount fits exactly where it is 0 or allocated plus it is within the limit. -/
theorem State.fits_iff (s : State) (amount : Nat) :
    s.fits amount = true ↔ amount = 0 ∨ s.allocated + amount ≤ s.limit := decide_eq_true_iff

/-- An absent rail has no parent, whatever its record holds. -/
@[simp] theorem State.parentsOf_absent (s : State) (r : Rail) (h : (s.record r).defined = false) : s.parentsOf r = [] := by
  simp [State.parentsOf, h]

theorem onlyRails_reconcile (s : State) : OnlyRails s s.reconcile := rfl

@[simp] theorem reconcile_rail (s : State) (r : Rail) : s.reconcile.rail r = s.rail r := rfl

@[simp] theorem reconcile_record (s : State) (r : Rail) : s.reconcile.record r = s.record r := rfl

@[simp] theorem reconcile_allocated (s : State) : s.reconcile.allocated = s.allocated := rfl

/-- After `reconcile` every entry has the kind and the amount that its rail asks for. -/
theorem State.mem_reconcile (s : State) (q : QueueEntry) (h : q ∈ s.reconcile.budgetQueue) :
    s.requestOf q.rail = some (q.kind, q.amount) := by
  obtain ⟨p, -, hp⟩ := List.mem_filterMap.mp h
  split at hp
  next k amount hreq =>
    split at hp
    next hk =>
      obtain rfl := Option.some.inj hp
      simp only at *
      rw [hreq, hk]
    next => cases hp
  next => cases hp

/-- `placeEntry` adds the one entry and loses none. -/
theorem mem_placeEntry (e q : QueueEntry) (es : List QueueEntry) : q ∈ placeEntry e es ↔ q = e ∨ q ∈ es := by
  induction es with
  | nil => simp [placeEntry]
  | cons a es ih =>
    unfold placeEntry
    split
    · simp only [List.mem_cons, ih]
      exact or_left_comm
    · simp

theorem onlyRails_placeRequest (s : State) (r : Rail) : OnlyRails s (s.placeRequest r) := by
  unfold State.placeRequest
  split
  · rfl
  · rfl

/-- `placeRequest` writes the queue alone. -/
theorem State.placeRequest_rails (s : State) (r : Rail) :
    (s.placeRequest r).rails = s.rails ∧ (s.placeRequest r).allocated = s.allocated := by
  unfold State.placeRequest
  split <;> exact ⟨rfl, rfl⟩

theorem onlyRails_placeRequests (s : State) : OnlyRails s s.placeRequests :=
  .foldl onlyRails_placeRequest _ s

/-- `placeRequests` writes the queue alone. -/
theorem State.placeRequests_rails (s : State) :
    s.placeRequests.rails = s.rails ∧ s.placeRequests.allocated = s.allocated := by
  have h : ∀ (rs : List Rail) (t : State),
      (rs.foldl State.placeRequest t).rails = t.rails ∧ (rs.foldl State.placeRequest t).allocated = t.allocated := by
    intro rs
    induction rs with
    | nil => exact fun _ => ⟨rfl, rfl⟩
    | cons a rs ih =>
      intro t
      obtain ⟨h1, h2⟩ := ih (t.placeRequest a)
      obtain ⟨h3, h4⟩ := t.placeRequest_rails a
      exact ⟨h1.trans h3, h2.trans h4⟩
  exact h allRails s

end Sys2Proof.Machine
end

