-- ==== Sys2Proof/Laws/Events.lean ====
section
/-! SUPPORT. What an event can do: the rails and the arbiter act first and write no session; then the sessions take the announcements and write nothing else. -/

namespace Sys2Proof.Machine

/-! ### The rails and the arbiter -/

theorem onlyRails_mapState {e : Event} {f : State → State} (h : OnlyRails e.st (f e.st)) : OnlyRails e.st (e.mapState f).st := h

theorem onlyRails_examineTarget (r : Rail) (e : Event) : OnlyRails e.st (examineTarget r e).st := by
  unfold examineTarget
  dsimp only
  split
  · exact onlyRails_enterDraining ..
  · split
    · exact onlyRails_enterSlewing ..
    · exact .refl _

theorem onlyRails_actOnTarget (r : Rail) (e : Event) : OnlyRails e.st (actOnTarget r e).st := by
  unfold actOnTarget
  dsimp only
  split
  · split
    · exact .refl _
    · exact onlyRails_enterWaiting ..
  · split
    · exact onlyRails_leaveWaiting ..
    · exact .refl _
  · split
    · exact onlyRails_enterDraining ..
    · exact .refl _
  · exact onlyRails_examineTarget ..
  · exact .refl _
  · exact .refl _
  · exact .refl _

theorem onlyRails_takeTarget (r : Rail) (e : Event) : OnlyRails e.st (takeTarget r e).st := by
  unfold takeTarget
  dsimp only
  split
  · exact .refl _
  · refine .trans (onlyRails_modRail e.st r fun y => { y with target := e.st.targetFor r }) ?_
    split <;> exact onlyRails_actOnTarget ..

theorem onlyRails_takeDeferredOff (r : Rail) (e : Event) : OnlyRails e.st (takeDeferredOff r e).st := by
  unfold takeDeferredOff
  dsimp only
  split
  · exact onlyRails_finishDrain ..
  · exact .refl _

theorem OnlyRails.foldl_event {α : Type} {f : Event → α → Event} (h : ∀ e a, OnlyRails e.st (f e a).st) (xs : List α)
    (e : Event) : OnlyRails e.st (xs.foldl f e).st := by
  induction xs generalizing e with
  | nil => exact .refl _
  | cons a xs ih => exact (h e a).trans (ih _)

theorem onlyRails_settle (e : Event) : OnlyRails e.st (settle e).st :=
  .foldl_event (fun e r => (onlyRails_takeTarget r e).trans (onlyRails_takeDeferredOff r _)) _ e

theorem onlyRails_railEvent (e : Event) : OnlyRails e.st (railEvent e).st := onlyRails_settle e

theorem onlyRails_settleAfter (e : Event) : OnlyRails e.st (settleAfter e).st := onlyRails_settle { e with log := [] }

theorem onlyRails_forceOff (k : FaultKind) (e : Event) (r : Rail) : OnlyRails e.st (forceOff k e r).st := by
  unfold forceOff
  split
  · exact onlyRails_enterDraining ..
  · exact .refl _

theorem onlyRails_cascade (k : FaultKind) (n : Nat) (rs : List Rail) (e : Event) : OnlyRails e.st (cascade k n rs e).st := by
  induction n generalizing rs e with
  | zero => exact .refl _
  | succ n ih =>
    unfold cascade
    split
    · exact .refl _
    · exact (OnlyRails.foldl_event (onlyRails_forceOff k) _ e).trans (ih ..)

theorem onlyRails_faultRail (r : Rail) (k : FaultKind) (e : Event) : OnlyRails e.st (faultRail r k e).st :=
  ((onlyRails_enterFault e.st r k).trans (onlyRails_cascade k ..)).trans (onlyRails_settleAfter _)

theorem onlyRails_takeWholeFall (before s : State) (r : Rail) : OnlyRails s (takeWholeFall before s r) := by
  unfold takeWholeFall
  dsimp only
  split
  · exact (onlyRails_callBackSlew ..).trans (onlyRails_enterDraining ..)
  · exact .refl _

theorem onlyRails_takeWholeFalls (before : State) (e : Event) : OnlyRails e.st (takeWholeFalls before e).st :=
  .foldl (onlyRails_takeWholeFall before) allRails e.st

theorem onlyRails_handGrant (before : State) (r : Rail) (k : GrantKind) (n : Nat) (e : Event) :
    OnlyRails e.st (handGrant before r k n e).st := by
  refine .trans (onlyRails_takeBudget e.st r n) ?_
  unfold handGrant
  split
  · dsimp only
    split
    · exact (onlyRails_faultRail r .backfeed (e.mapState fun s => s.takeBudget r n)).trans
        (onlyRails_takeWholeFalls before _)
    · exact onlyRails_enterRamping ..
  · exact onlyRails_enterSlewing ..

theorem onlyRails_setQueue (s : State) (q : List QueueEntry) : OnlyRails s { s with budgetQueue := q } := rfl

/-- A round of the grant rule writes the rails, allocated and the queue alone. -/
theorem onlyRails_grantRound (before : State) (e : Event) : OnlyRails e.st (grantRound before e).1.st := by
  have h1 : OnlyRails e.st e.st.reconcile := onlyRails_reconcile e.st
  have h2 : OnlyRails e.st e.st.reconcile.placeRequests := h1.trans (onlyRails_placeRequests _)
  unfold grantRound
  dsimp only
  split
  · exact h1.trans (onlyRails_handGrant before _ _ 0 { e with st := e.st.reconcile })
  · split
    · dsimp only
      exact h2
    · next q rest hq =>
      split
      · dsimp only
        exact (h2.trans (onlyRails_setQueue _ rest)).trans (onlyRails_handGrant before q.rail q.kind q.amount
          { e with st := { e.st.reconcile.placeRequests with budgetQueue := rest } })
      · dsimp only
        exact h2

theorem onlyRails_repeatRounds {round : Event → Event × Bool} (h : ∀ e, OnlyRails e.st (round e).1.st) (n : Nat) (e : Event) :
    OnlyRails e.st (repeatRounds round n e).st := by
  induction n generalizing e with
  | zero => exact .refl _
  | succ n ih =>
    have h' := h e
    unfold repeatRounds
    split <;> next heq => rw [heq] at h'; first | exact h'.trans (ih _) | exact h'

/-- The grant rule writes the rails, allocated and the queue alone. -/
theorem onlyRails_arbitrate (before : State) (n : Nat) (e : Event) : OnlyRails e.st (arbitrate before n e).st :=
  onlyRails_repeatRounds (onlyRails_grantRound before) n e

/-! ### The sessions -/

/-- From `s` to `t` nothing differs but the sessions' records, and those only as announcements write them: the completion
table, the queue, the lost-notice count and ALERTn of ATTACHED sessions; queues grow at the tail, completions only leave. -/
structure Heard (s t : State) : Prop where
  rest : t = { s with sessions := t.sessions }
  session : ∀ l : Link, t.session l =
    { s.session l with
      table := (t.session l).table
      queue := (t.session l).queue
      lost := (t.session l).lost
      alertn := (t.session l).alertn }
  unattached : ∀ l : Link, (s.session l).state ≠ .attached → t.session l = s.session l
  grows : ∀ l : Link, (s.session l).queue <+: (t.session l).queue
  leaves : ∀ (l : Link) (r : Rail), t.outstanding l r = none ∨ t.outstanding l r = s.outstanding l r

theorem Heard.refl (s : State) : Heard s s :=
  ⟨rfl, fun _ => rfl, fun _ _ => rfl, fun _ => List.prefix_refl _, fun _ _ => .inr rfl⟩

theorem Heard.trans {s t u : State} (h : Heard s t) (h' : Heard t u) : Heard s u where
  rest := by rw [h'.rest, h.rest]
  session l := by rw [h'.session l, h.session l]
  unattached l hl := by
    have hs : (t.session l).state = (s.session l).state := by rw [h.session l]
    rw [h'.unattached l (hs ▸ hl), h.unattached l hl]
  grows l := (h.grows l).trans (h'.grows l)
  leaves l r := by
    rcases h'.leaves l r with h1 | h1
    · exact .inl h1
    · rw [h1]
      exact h.leaves l r

theorem Heard.foldl {α : Type} {f : State → α → State} (h : ∀ s a, Heard s (f s a)) (xs : List α) (s : State) :
    Heard s (xs.foldl f s) := by
  induction xs generalizing s with
  | nil => exact .refl s
  | cons a xs ih => exact (h s a).trans (ih _)

/-- A write to one ATTACHED session's record that keeps within `Heard`. -/
theorem heard_modSession (s : State) (l : Link) (f : Session → Session) (ha : (s.session l).state = .attached)
    (hf : f (s.session l) =
      { s.session l with
        table := (f (s.session l)).table
        queue := (f (s.session l)).queue
        lost := (f (s.session l)).lost
        alertn := (f (s.session l)).alertn })
    (hq : (s.session l).queue <+: (f (s.session l)).queue)
    (ht : ∀ r : Rail, (f (s.session l)).table.get r = none ∨ (f (s.session l)).table.get r = (s.session l).table.get r) :
    Heard s (s.modSession l f) where
  rest := rfl
  session m := by
    rw [State.session_modSession]
    split
    · next h => rw [h]; exact hf
    · rfl
  unattached m hm := by
    rw [State.session_modSession, if_neg]
    rintro rfl
    exact hm ha
  grows m := by
    rw [State.session_modSession]
    split
    · next h => rw [h]; exact hq
    · exact List.prefix_refl _
  leaves m r := by
    unfold State.outstanding
    rw [State.session_modSession]
    split
    · next h => rw [h]; exact ht r
    · exact .inr rfl

theorem heard_placeRecord (s : State) (l : Link) (ha : (s.session l).state = .attached) (code : EventCode)
    (rail : Option Rail) (tag : Option Byte) (level : Nat) (d : Detail) : Heard s (s.placeRecord l code rail tag level d) :=
  heard_modSession s l _ ha rfl (List.prefix_append ..) fun _ => .inr rfl

theorem heard_clearOutstanding (s : State) (l : Link) (ha : (s.session l).state = .attached) (r : Rail) :
    Heard s (s.setOutstanding l r none) := by
  refine heard_modSession s l _ ha rfl (List.prefix_refl _) fun x => ?_
  rw [get_set]
  split
  · exact .inl rfl
  · exact .inr rfl

theorem heard_resolve (s : State) (l : Link) (ha : (s.session l).state = .attached) (r : Rail) (code : EventCode)
    (level : Nat) (d : Detail) : Heard s (s.resolve l r code level d) := by
  unfold State.resolve
  split
  · have h := heard_clearOutstanding s l ha r
    refine h.trans (heard_placeRecord _ l ?_ ..)
    rw [h.session l]
    exact ha
  · exact .refl s

theorem heard_offerNotice (s : State) (l : Link) (ha : (s.session l).state = .attached) (n : Nat) (code : EventCode)
    (rail : Option Rail) (level : Nat) (d : Detail) : Heard s (s.offerNotice l n code rail level d) := by
  unfold State.offerNotice
  split
  · exact heard_placeRecord s l ha ..
  · exact heard_modSession s l _ ha rfl (List.prefix_refl _) fun _ => .inr rfl

theorem heard_offerMasked (s : State) (l : Link) (ha : (s.session l).state = .attached) (reserve : Option Link)
    (named : Bool) (code : EventCode) (rail : Option Rail) (level : Nat) (d : Detail) :
    Heard s (offerMasked l reserve named code rail level d s) := by
  unfold offerMasked
  split
  · exact heard_offerNotice s l ha ..
  · exact .refl s

theorem heard_resolveFor (a : Announcement) (l : Link) (s : State) (ha : (s.session l).state = .attached) :
    Heard s (resolveFor a l s) := by
  unfold resolveFor
  split
  · exact .refl s
  · split
    · exact .refl s
    · split
      · exact heard_resolve s l ha ..
      · exact .refl s

theorem heard_noticeFor (reserve : Option Link) (a : Announcement) (l : Link) (s : State)
    (ha : (s.session l).state = .attached) : Heard s (noticeFor reserve a l s) := by
  unfold noticeFor offerClaimant
  split <;> first | exact heard_offerMasked s l ha .. | exact .refl s

theorem heard_hear (reserve : Option Link) (a : Announcement) (s : State) (l : Link) : Heard s (hear reserve a s l) := by
  unfold hear
  split
  · next ha =>
    have h := heard_resolveFor a l s ha
    refine h.trans (heard_noticeFor reserve a l _ ?_)
    rw [h.session l]
    exact ha
  · exact .refl s

/-- The delivery of announcements writes the sessions' records alone, as `Heard` says. -/
theorem heard_deliver (reserve : Option Link) (log : List Announcement) (s : State) : Heard s (deliver reserve log s) :=
  .foldl (fun s a => .foldl (fun s l => heard_hear reserve a s l) _ s) _ s

/-! ### The order of the announcements -/

/-- Placing the fault groups among an event's own announcements loses none and adds none. -/
theorem mem_placeGroups (a : Announcement) (own groups : List Announcement) :
    a ∈ placeGroups own groups ↔ a ∈ own ∨ a ∈ groups := by
  induction groups generalizing own with
  | nil => simp [placeGroups]
  | cons b groups ih =>
    unfold placeGroups
    split
    · next r _ =>
      simp only [List.mem_append, List.mem_cons, List.mem_filter, ih]
      cases h : a.upTo r <;> simp [or_left_comm]
    · simp only [List.mem_cons, ih, or_left_comm]

/-! ### The end of an event -/

/-- The end of an event is a reaction of the rails and the arbiter, heard by the sessions. -/
theorem conclude_cases (reserve : Option Link) (lead : List Announcement) (before : State) (e : Event) :
    ∃ m : State, OnlyRails e.st m ∧ Heard m (conclude reserve lead before e) :=
  ⟨_, onlyRails_arbitrate before _ { e with log := [] }, heard_deliver ..⟩

/-- The end of an event leaves alone the table, the lifecycle, the limit, the supply monitor, the links, the counter, the pins
and the waiting commands. -/
theorem conclude_rest (reserve : Option Link) (lead : List Announcement) (before : State) (e : Event) :
    conclude reserve lead before e =
      { e.st with
        rails := (conclude reserve lead before e).rails
        sessions := (conclude reserve lead before e).sessions
        allocated := (conclude reserve lead before e).allocated
        budgetQueue := (conclude reserve lead before e).budgetQueue } := by
  obtain ⟨m, hm, ht⟩ := conclude_cases reserve lead before e
  rw [ht.rest, hm]

/-- An event at the rails is a reaction of the rails and the arbiter, heard by the sessions. -/
theorem railTurn_cases (reserve : Option Link) (lead : List Announcement) (e : Event) :
    ∃ m : State, OnlyRails e.st m ∧ Heard m (railTurn reserve lead e) := by
  obtain ⟨m, hm, ht⟩ := conclude_cases reserve lead e.st (railEvent e)
  exact ⟨m, (onlyRails_railEvent e).trans hm, ht⟩

/-- An event that is one ordered group ends as a reaction of the rails and the arbiter, heard by the sessions. -/
theorem concludeGroup_cases (e : Event) : ∃ m : State, OnlyRails e.st m ∧ Heard m (concludeGroup e) :=
  conclude_cases none e.log e.st { e with log := [] }

end Sys2Proof.Machine
end

