-- ==== Sys2Proof/Laws/Requests.lean ====
section
/-! SUPPORT. What the common path of a request can do, one lemma for each way it can end; and what the operations on a session's record write. -/

namespace Sys2Proof.Machine

/-! ### The common path of a request -/

/-- Outside REQUEST a frame is not read. -/
theorem State.serve_ignored {s : State} {k : Kind} {l : Link} {f : Frame} {body : State → Answer}
    (h : (s.link l).receiver ≠ .request) : s.serve k l f body = s := by
  unfold State.serve
  rw [if_neg h]

/-- A frame that fails check 1 or 2 is answered and touches no session. -/
theorem State.serve_badFrame {s : State} {k : Kind} {l : Link} {f : Frame} {body : State → Answer} {st : Status}
    (h : (s.link l).receiver = .request) (hf : frameRefusal k f = some st) :
    s.serve k l f body = s.respond l f.tag st [] := by
  unfold State.serve
  simp only [if_pos h, hf]

/-- A request that fails check 3 is answered and touches no session. -/
theorem State.serve_sessionRefused {s : State} {k : Kind} {l : Link} {f : Frame} {body : State → Answer} {st : Status}
    (h : (s.link l).receiver = .request) (hf : frameRefusal k f = none)
    (hs : sessionRefusal k (s.session l).state = some st) : s.serve k l f body = s.respond l f.tag st [] := by
  unfold State.serve
  simp only [if_pos h, hf, hs]

@[simp] theorem State.renewLease_lifecycle (s : State) (l : Link) : (s.renewLease l).lifecycle = s.lifecycle := by
  unfold State.renewLease
  split <;> rfl

/-- A request that fails check 4 has renewed its lease and is answered. -/
theorem State.serve_lifecycleRefused {s : State} {k : Kind} {l : Link} {f : Frame} {body : State → Answer} {st : Status}
    (h : (s.link l).receiver = .request) (hf : frameRefusal k f = none)
    (hs : sessionRefusal k (s.session l).state = none) (hl : lifecycleRefusal k s.lifecycle = some st) :
    s.serve k l f body = (s.renewLease l).respond l f.tag st [] := by
  unfold State.serve
  simp only [if_pos h, hf, hs, State.renewLease_lifecycle, hl]

/-- A request that passes the common checks is answered by its own rules, on the state with the lease renewed. -/
theorem State.serve_taken {s : State} {k : Kind} {l : Link} {f : Frame} (body : State → Answer) (h : Passes s k l f) :
    s.serve k l f body =
      (body (s.renewLease l)).st.respond l f.tag (body (s.renewLease l)).status (body (s.renewLease l)).data := by
  unfold State.serve
  simp only [if_pos h.receiver, h.frame, h.session, State.renewLease_lifecycle, h.lifecycle]

/-! ### Responses -/

/-- A response writes the receiver of its link alone. -/
theorem State.respond_eq (s : State) (l : Link) (tag : Byte) (st : Status) (data : List Byte) :
    s.respond l tag st data =
      { s with
        links := s.links.set l.val { s.link l with receiver := .response (responseFrame st tag data) } l.isLt } := rfl

@[simp] theorem State.respond_rail (s : State) (l : Link) (tag : Byte) (st : Status) (data : List Byte) (r : Rail) :
    (s.respond l tag st data).rail r = s.rail r := rfl

@[simp] theorem State.respond_session (s : State) (l : Link) (tag : Byte) (st : Status) (data : List Byte) (m : Link) :
    (s.respond l tag st data).session m = s.session m := rfl

@[simp] theorem State.respond_claim (s : State) (l : Link) (tag : Byte) (st : Status) (data : List Byte) (m : Link)
    (r : Rail) : (s.respond l tag st data).claim m r = s.claim m r := rfl

theorem answered_respond {s t : State} {l : Link} {f : Frame} {st : Status} {data : List Byte} (h : t.links = s.links) :
    Answered s (t.respond l f.tag st data) l st f data := by
  unfold Answered
  rw [State.respond_eq]
  simp only [State.link, h]

/-! ### The lease (R131) -/

/-- The lease of an ATTACHED session is restarted at the session check. -/
theorem State.renewLease_attached {s : State} {l : Link} (h : (s.session l).state = .attached) :
    s.renewLease l = { s with sessions := s.leaseRestarted l } := by
  unfold State.renewLease
  rw [if_pos h]
  rfl

/-- The session check leaves a session that is not ATTACHED as it is. -/
theorem State.renewLease_other {s : State} {l : Link} (h : (s.session l).state ≠ .attached) : s.renewLease l = s := by
  unfold State.renewLease
  rw [if_neg h]

/-! ### A session's records -/

/-- A record placed: the tail of the one queue, and ALERTn. -/
theorem State.session_placeRecord (s : State) (l m : Link) (code : EventCode) (rail : Option Rail) (tag : Option Byte)
    (level : Nat) (d : Detail) :
    (s.placeRecord l code rail tag level d).session m =
      if m = l then
        { s.session l with
          queue := (s.session l).queue ++ [⟨code, rail, tag, level, d, s.timestamp⟩]
          alertn := .low }
      else s.session m :=
  s.session_modSession l m fun x =>
    { x with queue := x.queue ++ [⟨code, rail, tag, level, d, s.timestamp⟩], alertn := .low }

/-- `resolve` moves the completion from its table into the queue with its own tag, and does nothing where there is none. -/
theorem State.resolve_cases (s : State) (l : Link) (r : Rail) (code : EventCode) (level : Nat) (d : Detail) :
    (s.outstanding l r = none ∧ s.resolve l r code level d = s)
      ∨ ∃ o, s.outstanding l r = some o
        ∧ s.resolve l r code level d =
          (s.setOutstanding l r none).placeRecord l code (some r) (some o.tag) level d := by
  unfold State.resolve
  split
  · next o h => exact .inr ⟨o, h, rfl⟩
  · next h => exact .inl ⟨h, rfl⟩

/-- After `resolve` the session has no outstanding completion on the rail. -/
theorem State.outstanding_resolve (s : State) (l : Link) (r : Rail) (code : EventCode) (level : Nat) (d : Detail) :
    (s.resolve l r code level d).outstanding l r = none := by
  rcases s.resolve_cases l r code level d with ⟨h, he⟩ | ⟨o, -, he⟩
  · rw [he, h]
  · rw [he]
    unfold State.outstanding
    rw [State.session_placeRecord, if_pos rfl]
    exact (s.outstanding_setOutstanding l l r r none).trans (if_pos ⟨rfl, rfl⟩)

/-- A notice is placed where the room allows it, and counted as lost otherwise. -/
theorem State.offerNotice_cases (s : State) (l : Link) (n : Nat) (code : EventCode) (rail : Option Rail) (level : Nat)
    (d : Detail) :
    ((s.session l).roomUsed + n < Config.sessionRoom
        ∧ s.offerNotice l n code rail level d = s.placeRecord l code rail none level d)
      ∨ (Config.sessionRoom ≤ (s.session l).roomUsed + n
        ∧ s.offerNotice l n code rail level d =
          s.modSession l fun x => { x with lost := min (x.lost + 1) Config.lostMax }) := by
  unfold State.offerNotice
  split
  · next h => exact .inl ⟨h, rfl⟩
  · next h => exact .inr ⟨Nat.le_of_not_lt h, rfl⟩

/-! ### Teardown (R141) -/

theorem Session.tornDown_eq_gone (x : Session) (st : SessionState) : x.tornDown st = x.gone st := rfl

/-- The session torn down and its claims cleared, before the rails act. -/
theorem State.without_eq (s : State) (l : Link) (st : SessionState) :
    (s.modSession l fun x => x.tornDown st).clearClaims l = s.without l st := by
  have hr : ((s.modSession l fun x => x.tornDown st).clearClaims l).rails = (s.without l st).rails :=
    vector_eq_of_get fun r => by
      have h := get_map (fun x => ({ x with claims := x.claims.set l.val 0 l.isLt } : RailRuntime)) s.rails r
      exact (State.rail_clearClaims _ l r).trans h.symm
  have ha : ∀ (rs : List Rail) (t : State),
      (rs.foldl (fun t r => t.setClaim l r 0) t).allocated = t.allocated
        ∧ (rs.foldl (fun t r => t.setClaim l r 0) t).budgetQueue = t.budgetQueue := by
    intro rs
    induction rs with
    | nil => exact fun _ => ⟨rfl, rfl⟩
    | cons a rs ih => exact fun t => ⟨(ih _).1.trans rfl, (ih _).2.trans rfl⟩
  have h := onlyRails_clearClaims (s.modSession l fun x => x.tornDown st) l
  rw [OnlyRails, hr, State.clearClaims, (ha _ _).1, (ha _ _).2] at h
  exact h

/-- A teardown is what is left without the session, on which the rails act. -/
theorem teardown_eq (l : Link) (st : SessionState) (s : State) :
    teardown l st s = railTurn none [] ⟨s.without l st, []⟩ := by
  rw [teardown, State.without_eq]

end Sys2Proof.Machine
end

