-- ==== Sys2Proof/Tests/Slice0.lean ====
section
/-! SUPPORT. Tests on single commands, with values from the worked sequences and tables of spec/, and for each statement with hypotheses a state and operands that meet them. -/

namespace Sys2Proof.Tests

open Sys2Proof.Machine

-- One theorem at a time: a thread for each would take more memory than a check allows.
set_option Elab.async false

/-! ### The example board of 11.1 -/

/-- The state a command leads to. -/
def after (c : Instr) (s : State) : State :=
  match exec c s with
  | .next t => t
  | _ => s

/-- A good frame with tag 0x2A. -/
def frame (k : Kind) (args : List Byte) : Frame := buildFrame k 0x2A args

/-- The status byte of the response that a link holds. -/
def statusOn (s : State) (l : Link) : Option Byte :=
  match (s.link l).receiver with
  | .response bytes => bytes.head?
  | _ => none

/-- The data bytes of the response that a link holds. -/
def dataOn (s : State) (l : Link) : List Byte :=
  match (s.link l).receiver with
  | .response bytes => (bytes.drop 3).dropLast
  | _ => []

/-- A defined rail record. -/
def row (costs : List (BitVec 16)) (parents : List Byte) (pg : PgMode) (times : Byte × Byte × Byte) (cls : ShedClass)
    (priority : BitVec 2) (retry : BitVec 4) : RailRecord where
  defined := true
  pgMode := pg
  shedClass := cls
  priority := priority
  levelCount := BitVec.ofNat 4 costs.length
  retryLimit := retry
  rampTime := times.1
  slewTime := times.2.1
  drainTime := times.2.2
  costs := costs
  parents := parents

/-- The rail table of 11.1. -/
def boardRecords : Vector RailRecord 16 := Vector.ofFn fun r =>
  match r.val with
  | 0 => row [30, 40, 55] [] .monitored (20, 5, 30) .keep 3 2
  | 1 => row [15] [0] .monitored (10, 0, 20) .keep 2 0
  | 2 => row [20, 35] [0] .timed (8, 4, 10) .shed 1 0
  | 8 => row [10] [1] .monitored (10, 0, 15) .keep 1 0
  | 9 => row [25] [1, 2] .monitored (15, 0, 20) .shed 0 0
  | 12 => row [20] [] .timed (150, 0, 20) .shed 1 0
  | _ => .powerOn

/-- The part record of 11.1. -/
def boardPart : PartRecord where
  budgetFull := 150
  budgetLow := 80
  warnCode := 12
  critCode := 6
  hysteresisCode := 2
  holdoffCode := 20

/-- A rail in ON. -/
def onRail (r : Rail) (level target held : Nat) (claims : Vector Nat 4) (holds : List Rail) (pg : Line) : RailRuntime :=
  driveLines r
    { RailRuntime.powerOn with
      state := .on
      level := level
      target := target
      claims := claims
      holdSet := Vector.ofFn fun c => holds.contains c
      held := held
      pg := pg }

/-- The rails of 11.2 at 20 ms, each with its claims and holds. -/
def boardRails : Vector RailRuntime 16 := Vector.ofFn fun r =>
  match r.val with
  | 0 => onRail r 3 3 55 #v[0, 3, 0, 0] [1, 2] .high
  | 1 => onRail r 1 1 15 #v[0, 0, 0, 0] [8, 9] .high
  | 2 => onRail r 1 1 20 #v[0, 0, 0, 0] [9] .low
  | 8 => onRail r 1 1 10 #v[1, 0, 0, 0] [] .high
  | 9 => onRail r 1 1 25 #v[0, 1, 0, 0] [] .high
  | _ => .powerOn

/-- An ATTACHED session with every notice kind in its mask. -/
def member : Session :=
  { Session.powerOn with
    state := .attached
    leaseLength := 10
    leaseTimer := .running 900
    mask := ⟨true, true, true, true, true⟩ }

/-- The part of 11.2 at 20 ms: sessions 0 and 1 ATTACHED, every link with a window open. -/
def board : State :=
  { State.reset with
    records := boardRecords
    part := boardPart
    lifecycle := .committed
    rails := boardRails
    allocated := 125
    limit := 150
    supply := { SupplyMonitor.powerOn with active := true }
    sessions := #v[member, member, .powerOn, .powerOn]
    links := .replicate 4 ⟨.request, .low, .high⟩
    timestamp := 20
    sense := 3300 }

/-- The board with rail 2 at level 2, and rail 12 in WAITING for a START of 20 that does not fit: 140 + 20 is above 150. -/
def full : State :=
  { (board.modRail 2 fun x => { x with level := 2, target := 2, held := 35, lvl := 1, claims := #v[0, 2, 0, 0] }).modRail 12
      fun x => { x with state := .waiting, target := 1, claims := #v[1, 0, 0, 0] } with
    allocated := 140
    budgetQueue := [⟨12, .start, 20, 1⟩] }

/-- Rails at the end of their times: rail 1 draining under the hold of the draining rail 8, which session 0 claims at `v`;
rail 2 slewing to level 1 with a target of 0 and an OFF-WAIT of session 1; rail 12 ramping with a CLAIM-WAIT of session 0. -/
def busy (v : Nat) : State :=
  let s1 := board.modRail 1 fun x =>
    driveLines 1 { x with
      state := .draining, timer := .running 0, pg := .low, holdSet := Vector.ofFn fun c => c = 8 }
  let s2 := s1.modRail 2 fun x =>
    driveLines 2 { x with
      state := .slewing, slewOrigin := some 2, target := 0, held := 35, timer := .running 0, holdSet := .replicate 16 false }
  let s3 := s2.modRail 8 fun x =>
    driveLines 8 { x with
      state := .draining, timer := .running 0, pg := .low, target := v, claims := #v[v, 0, 0, 0]
      drainCause := .parentFault }
  let s4 := s3.modRail 9 fun _ => .powerOn
  let s5 := s4.modRail 12 fun x =>
    driveLines 12 { x with
      state := .ramping, level := 1, target := 1, held := 20, timer := .running 0, claims := #v[1, 0, 0, 0] }
  { (s5.setOutstanding 0 12 (some ⟨.claimWait 1, 0x03⟩)).setOutstanding 1 2 (some ⟨.offWait, 0x21⟩) with
    allocated := 135 }

/-- A part that is UNCOMMITTED and holds the table of the board, session 0 ATTACHED, every link with a window open. -/
def blank : State :=
  { State.reset with
    records := boardRecords
    part := boardPart
    sessions := #v[member, .powerOn, .powerOn, .powerOn]
    links := .replicate 4 ⟨.request, .low, .high⟩
    sense := 3300 }

/-! ### A check of coherence that can be evaluated -/

/-- What `OutstandingFits` asks at one place, as a Bool. -/
def fitsAt (s : State) (l : Link) (r : Rail) : Bool :=
  match s.outstanding l r with
  | none => true
  | some ⟨.claimWait level, _⟩ =>
    decide (1 ≤ level ∧ s.claim l r = level ∧ (s.rail r).state ≠ .fault
      ∧ ((s.rail r).state = .on → (s.rail r).level < level))
  | some ⟨.offWait, _⟩ =>
    decide (s.claim l r = 0
      ∧ ((s.rail r).state = .draining ∨ ((s.rail r).state = .slewing ∧ (s.rail r).target = 0)))

theorem outstandingFits_of_fitsAt {s : State} (h : ∀ (l : Link) (r : Rail), fitsAt s l r = true) : OutstandingFits s := by
  intro l r
  have h := h l r
  unfold fitsAt at h
  revert h
  generalize s.outstanding l r = o
  rcases o with _ | ⟨_ | _, _⟩
  · exact fun _ => trivial
  · exact fun h => decide_eq_true_iff.mp h
  · exact fun h => decide_eq_true_iff.mp h

/-- What `RecordShape` asks of a rail, as one decidable proposition. -/
abbrev ShapeFacts (x : RailRuntime) : Prop :=
  (x.state = .off ∨ x.state = .waiting ∨ x.state = .fault → x.level = 0 ∧ x.held = 0)
    ∧ (x.timer ≠ .stopped ↔ x.state = .ramping ∨ x.state = .slewing ∨ (x.state = .draining ∧ x.drainFinished = false))
    ∧ (x.slewOrigin.isSome ↔ x.state = .slewing) ∧ (x.drainFinished = true → x.state = .draining)
    ∧ (x.faultLatch = true ↔ x.state = .fault) ∧ (x.state = .fault → x.faultKind ≠ none)
    ∧ x.faultCount ≤ Config.faultCountMax

/-- What `SessionShape` asks of a session, as one decidable proposition; its lease has `ms` left while it is ATTACHED. -/
abbrev SessionFacts (x : Session) (ms : Nat) : Prop :=
  x.roomUsed ≤ Config.sessionRoom ∧ x.lost ≤ Config.lostMax ∧ (x.alertn = .low ↔ x.queue ≠ [])
    ∧ (x.state ≠ .attached →
      x.leaseTimer = .stopped ∧ x.mask = .empty ∧ (∀ r : Rail, x.table.get r = none) ∧ x.queue = [] ∧ x.lost = 0)
    ∧ (x.state = .attached → x.leaseTimer = .running ms ∧ ms ≤ x.leaseLength.toNat * Config.leaseUnit)

/-- What `Coherent` asks of the table, the lines and the shapes of the rails of a committed part, as one decidable
proposition. -/
abbrev TableFacts (s : State) : Prop :=
  (∀ r : Rail, (s.record r).costs.length = (s.record r).levelCount.toNat) ∧ commitFault s = none
    ∧ (∀ r : Rail, (s.rail r).en = enLine (s.rail r).state ∧ (s.rail r).lvl = lvlCode r (s.rail r).level)
    ∧ (∀ r : Rail, ShapeFacts (s.rail r)) ∧ (∀ r : Rail, (s.rail r).held = s.heldByRule r)

/-- What `Coherent` asks of the levels and the graph of a committed part, as one decidable proposition. -/
abbrev GraphFacts (s : State) : Prop :=
  (∀ r : Rail,
      (s.rail r).level ≤ (s.record r).levelCount.toNat ∧ (s.rail r).target ≤ (s.record r).levelCount.toNat
        ∧ ((s.rail r).slewOrigin.getD 0) ≤ (s.record r).levelCount.toNat
        ∧ (∀ l : Link, s.claim l r ≤ (s.record r).levelCount.toNat)
        ∧ ((s.record r).defined = false → (s.rail r).state = .off ∧ ∀ l : Link, s.claim l r = 0))
    ∧ (∀ p c : Rail, (s.rail p).holdSet.get c = (s.isParent p c && (s.rail c).state.holding))
    ∧ (∀ r : Rail, (s.rail r).state.running = true → ∀ p ∈ s.parentsOf r, (s.rail p).state.up = true)

/-- What `Coherent` asks of the targets of a committed part, as one decidable proposition. -/
abbrev TargetFacts (s : State) : Prop :=
  (∀ r : Rail,
      (s.rail r).target = s.targetFor r ∧ ((s.rail r).state = .off → (s.rail r).target = 0)
        ∧ ((s.rail r).state = .waiting → (s.rail r).target ≠ 0) ∧ ((s.rail r).state = .ramping → (s.rail r).target ≠ 0)
        ∧ ((s.rail r).state = .on → (s.rail r).level ≤ (s.rail r).target)
        ∧ ((s.rail r).drainFinished = true → s.heldByDraining r = true)
        ∧ ((s.rail r).state.running = true ∨ (s.rail r).state = .draining → 1 ≤ (s.rail r).level))

/-- What `Sound` asks of the budget arbiter of a committed part, as one decidable proposition. -/
abbrev KeptFacts (s : State) : Prop :=
  s.allocated = s.heldTotal
    ∧ (s.part.budgetLow ≤ s.part.budgetFull ∧ s.limit ≤ s.part.budgetFull.toNat
      ∧ s.allocated ≤ s.part.budgetFull.toNat)
    ∧ (∀ q ∈ s.budgetQueue,
      s.requestOf q.rail = some (q.kind, q.amount) ∧ q.priority = (s.record q.rail).priority)
    ∧ (s.budgetQueue.map QueueEntry.rail).Nodup ∧ (∀ r : Rail, s.requestOf r ≠ none → s.queued r = true)
    ∧ (s.budgetQueue.Pairwise fun a b => b.priority ≤ a.priority)

/-- What `Coherent` asks of the budget arbiter of a committed part, as one decidable proposition. -/
abbrev BudgetFacts (s : State) : Prop :=
  KeptFacts s ∧ ∀ q ∈ s.budgetQueue.head?, 0 < q.amount ∧ s.limit < s.allocated + q.amount

/-- What `Coherent` asks of the supply monitor of a committed part, as one decidable proposition. -/
abbrev SupplyFacts (s : State) : Prop :=
  s.supply.active = true ∧ s.limit = s.part.limitIn s.supply.state
    ∧ (s.supply.holdoff ≠ .stopped ↔ s.supply.state = .recovering)
    ∧ (∀ r : Rail, (s.rail r).suspended = true → (s.record r).defined = true ∧ (s.record r).shedClass = .shed)
    ∧ (s.supply.state = .low ∨ s.supply.state = .recovering →
      ∀ r : Rail, (s.record r).defined = true → (s.record r).shedClass = .shed → (s.rail r).suspended = true)
    ∧ (s.supply.state = .normal → ∀ r : Rail, (s.rail r).suspended = false)
    ∧ (s.supply.state = .collapse → ∀ r : Rail, (s.rail r).state.running = false)

/-- What `Coherent` asks of the sessions of a committed part, as one decidable proposition. -/
abbrev SessionsFacts (s : State) (ms : Nat) : Prop :=
  (∀ l : Link,
      SessionFacts (s.session l) ms ∧ ((s.session l).state ≠ .attached → ∀ r : Rail, s.claim l r = 0))
    ∧ (∀ (l : Link) (r : Rail), fitsAt s l r = true) ∧ s.lifecycle = .committed

/-- A committed part for which all of this is so is sound. -/
theorem sound_of_facts {s : State} {ms : Nat} (h0 : TableFacts s) (h1 : GraphFacts s) (h1' : TargetFacts s)
    (h2 : KeptFacts s) (h3 : SupplyFacts s) (h4 : SessionsFacts s ms) : Sound s := by
  obtain ⟨hcosts, hpass, hlines, hshape, hheld⟩ := h0
  obtain ⟨hlevels, hholds, hparents⟩ := h1
  have hsettled := h1'
  obtain ⟨hbal, hwithin, hentry, honce, hevery, horder⟩ := h2
  obtain ⟨hactive, hlimit, hholdoff, hflag, hset, hclear, hcollapse⟩ := h3
  obtain ⟨hsess, hfits, hlife⟩ := h4
  refine
    { table := ⟨hcosts, fun _ => hpass⟩
      lines := hlines
      shape := fun r => ?_
      held := hheld
      levels := hlevels
      holds := hholds
      parents := hparents
      settled :=
        ⟨fun r => (hsettled r).1, fun r => (hsettled r).2.1, fun r => (hsettled r).2.2.1, fun r => (hsettled r).2.2.2.1,
          fun r => (hsettled r).2.2.2.2.1, fun r => (hsettled r).2.2.2.2.2.1, fun r => (hsettled r).2.2.2.2.2.2⟩
      balanced := hbal
      within := fun _ => hwithin
      kept := ⟨hentry, honce, hevery, horder⟩
      supply := ⟨by simp [hactive, hlife], fun _ => hlimit, hholdoff, hflag, hset, hclear, hcollapse⟩
      sessions := fun l => ⟨?_, (hsess l).2⟩
      outstanding := outstandingFits_of_fitsAt hfits
      idle := fun h => by rw [hlife] at h; cases h }
  · obtain ⟨h1, h2, h3, h4, h5, h6, h7⟩ := hshape r
    exact ⟨h1, h2, h3, h4, h5, h6, h7⟩
  · obtain ⟨⟨h1, h2, h3, h4, h5⟩, -⟩ := hsess l
    exact ⟨h1, h2, h3, h4, fun h => ⟨ms, h5 h⟩⟩

/-- A committed part for which all of this is so is coherent. -/
theorem coherent_of_facts {s : State} {ms : Nat} (h0 : TableFacts s) (h1 : GraphFacts s) (h1' : TargetFacts s)
    (h2 : BudgetFacts s) (h3 : SupplyFacts s) (h4 : SessionsFacts s ms) : Coherent s :=
  { toSound := sound_of_facts h0 h1 h1' h2.1 h3 h4, head := h2.2 }

theorem coherent_board : Coherent board :=
  coherent_of_facts (ms := 900) (by decide +kernel) (by decide +kernel) (by decide +kernel) (by decide +kernel) (by decide +kernel) (by decide +kernel)

theorem coherent_full : Coherent full :=
  coherent_of_facts (ms := 900) (by decide +kernel) (by decide +kernel) (by decide +kernel) (by decide +kernel) (by decide +kernel) (by decide +kernel)

theorem coherent_busy : Coherent (busy 1) :=
  coherent_of_facts (ms := 900) (by decide +kernel) (by decide +kernel) (by decide +kernel) (by decide +kernel) (by decide +kernel) (by decide +kernel)

theorem coherent_busy_released : Coherent (busy 0) :=
  coherent_of_facts (ms := 900) (by decide +kernel) (by decide +kernel) (by decide +kernel) (by decide +kernel) (by decide +kernel) (by decide +kernel)

/-! ### Which commands a sender can send -/

theorem test_wf_refuses_missing_argument : (Instr.claim 0 { frame .claim [0, 1] with args := [0] }).wf = false := by
  decide +kernel

theorem test_wf_refuses_arguments_of_a_long_frame :
    (Instr.claim 0 { frame .claim [0, 1] with length := 33 }).wf = false := by decide +kernel

theorem test_wf_refuses_wait_under_releaseWithoutWait :
    (Instr.releaseWithoutWait 0 (frame .release [0, 1])).wf = false := by decide +kernel

theorem test_wf_refuses_no_wait_under_releaseWithWait :
    (Instr.releaseWithWait 0 (frame .release [0, 0])).wf = false := by decide +kernel

theorem test_wf_refuses_sense_above_its_range : (Instr.fallBelowWarn 6001).wf = false := by decide +kernel

theorem test_wf_takes_good_commands :
    (Instr.releaseWithWait 0 (frame .release [0, 1])).wf = true ∧ (Instr.warmReset 6000).wf = true := by decide +kernel

theorem test_no_word_spells_a_command : decodeTableWord 8 0x01 = none := rfl

/-! ### Frames (chapter 10) -/

/-- The check string of the CRC catalogues: 0x4B for the variant with a final inversion, its complement without. -/
theorem test_crc8_check_string : crc8 [0x31, 0x32, 0x33, 0x34, 0x35, 0x36, 0x37, 0x38, 0x39] = 0xB4 := by decide +kernel

/-- R182: the CRC is checked before the kind. -/
theorem test_bad_crc_is_refused_first :
    statusOn (after (.renew 0 ⟨.unlisted ⟨0x77, by decide⟩, 0, 0, [], 0⟩) board) 0 = some 0x10 := by decide +kernel

/-- R183: a kind that is not listed. -/
theorem test_unlisted_kind_is_refused :
    statusOn
      (after (.renew 0 ⟨.unlisted ⟨0x77, by decide⟩, 0, 0, [], crc8 [0x77, 0, 0]⟩) board) 0 = some 0x11 := by decide +kernel

/-- 10.5: the part of the example. -/
def queried : State :=
  { board with
    limit := 100
    allocated := 100
    timestamp := 1200
    sessions := #v[member, .powerOn, .powerOn, member]
    budgetQueue := [⟨4, .raise, 5, 2⟩, ⟨10, .start, 10, 1⟩] }

/-- 10.5: the response, byte for byte. -/
theorem test_queryPart_example :
    ((after (.queryPart 3 (buildFrame .queryPart 0x40 [])) queried).link 3).receiver =
      .response
        ([0x00, 0x40, 0x11, 0x01, 0x00, 0x00, 0x64, 0x00, 0x64, 0x01, 0x00, 0x00, 0x01, 0x04, 0xB0, 0x02, 0x48, 0x05,
            0xA0, 0x0A]
          ++ [crc8 [0x00, 0x40, 0x11, 0x01, 0x00, 0x00, 0x64, 0x00, 0x64, 0x01, 0x00, 0x00, 0x01, 0x04, 0xB0, 0x02, 0x48,
            0x05, 0xA0, 0x0A]]) := by decide +kernel

/-- 11.2: rail 0 at 20 ms as session 1 sees it: ON at 3, target 3, claims 0 and 3, hold set {1, 2}, 55 held (R184, R191). -/
theorem test_queryRail_reports_rail_0 :
    dataOn (after (.queryRail 1 (frame .queryRail [0])) board) 1 =
      [0x03, 3, 3, 3, 3, 0x00, 0x06, 0x00, 0xFF, 0x00, 0, 0x00, 0x00, 55] := by decide +kernel

/-- 10.3: CSn falls, and the frame receiver goes to REQUEST. -/
theorem test_csnFall_opens_a_window :
    ((after (.csnFall 2) State.reset).link 2) = ⟨.request, .low, .high⟩ := by decide +kernel

theorem test_csnFall_is_ignored_under_link_reset :
    ((after (.csnFall 2) (State.reset.modLink 2 fun x => { x with lrstn := .low })).link 2).receiver = .idle := by
  decide +kernel

theorem test_csnRise_ends_the_window : ((after (.csnRise 1) board).link 1) = ⟨.idle, .high, .high⟩ := by decide +kernel

/-- R179: nothing else comes of a frame that is cut off. -/
theorem test_frameDiscard_does_nothing_else :
    { after (.frameDiscard 1) board with links := board.links } = board := by decide +kernel

theorem test_responseEnd_leads_to_done :
    ((after (.responseEnd 1) (board.modLink 1 fun x => { x with receiver := .response [0x00] })).link 1).receiver = .done := by
  decide +kernel

/-! ### Sessions -/

/-- 11.6 at 700 ms: link 2, COMMITTED, NORMAL, and a lease of 100 ms. -/
theorem test_attach_answers_link_lifecycle_supply :
    let t := after (.attach 2 (frame .attach [1, 0])) board
    statusOn t 2 = some 0x00 ∧ dataOn t 2 = [0x02, 0x01, 0x00] ∧ (t.session 2).leaseTimer = .running 100 := by
  decide +kernel

/-- R133: an ATTACH of an ATTACHED session. -/
theorem test_attach_again_is_refused :
    statusOn (after (.attach 0 (frame .attach [1, 0])) board) 0 = some 0x13 := by decide +kernel

/-- R141, R70: the claims of session 1 go with it; rail 0 stays up at 1 for the rails below it, rail 9 drains. -/
theorem test_detach_gives_up_its_claims :
    let t := after (.detach 1 (frame .detach [])) board
    (t.session 1).state = .detached ∧ (t.rail 0).claims = #v[0, 0, 0, 0] ∧ (t.rail 0).target = 1
      ∧ (t.rail 0).state = .slewing ∧ (t.rail 9).state = .draining := by decide +kernel

theorem test_renew_restarts_the_lease :
    ((after (.renew 0 (frame .renew [])) board).session 0).leaseTimer = .running 1000 := by decide +kernel

/-- R159: one record left of two, seven lost notices reported and forgotten. -/
theorem test_fetchEvent_returns_the_head :
    let s := board.modSession 0 fun x =>
      { x with
        queue := [⟨.granted, some 8, some 0x01, 1, .absent, 18⟩, ⟨.supplyChange, none, none, 0, .supply .low, 200⟩]
        lost := 7
        alertn := .low }
    let t := after (.fetchEvent 0 (frame .fetchEvent [])) s
    dataOn t 0 = [1, 7, 0x00, 0x01, 8, 0x01, 1, 0xFF, 0x00, 18] ∧ (t.session 0).lost = 0
      ∧ (t.session 0).alertn = .low := by decide +kernel

theorem test_fetchEvent_of_an_empty_queue :
    let t := after (.fetchEvent 0 (frame .fetchEvent [])) board
    statusOn t 0 = some 0x02 ∧ dataOn t 0 = [0, 0] := by decide +kernel

/-- 11.6 at 860 ms: the ramp of rail 12 is aborted with the session whose claim it was. -/
theorem test_leaseExpiry_tears_down :
    let s := (busy 1).modSession 0 fun x => { x with leaseTimer := .running 0 }
    let t := after (.leaseExpiry 0) s
    (t.session 0).state = .expired ∧ (t.rail 12).state = .draining ∧ (t.rail 12).held = 20
      ∧ t.outstanding 0 12 = none := by decide +kernel

/-! ### Claims -/

/-- 11.3 at 100 ms: answered at once with the level the rail has. -/
theorem test_claim_is_granted_at_once :
    let t := after (.claim 0 (buildFrame .claim 0x02 [0, 2])) board
    statusOn t 0 = some 0x01 ∧ (t.rail 0).claims = #v[2, 3, 0, 0] ∧ (t.rail 0).target = 3
      ∧ (t.session 0).queue = [⟨.granted, some 0, some 0x02, 3, .absent, 20⟩] := by decide +kernel

/-- 11.3 at 102 ms: a START of 20 granted at the event of the CLAIM. -/
theorem test_claim_starts_a_rail :
    let t := after (.claim 0 (buildFrame .claim 0x03 [12, 1])) board
    (t.rail 12).state = .ramping ∧ (t.rail 12).en = .high ∧ (t.rail 12).timer = .running 150 ∧ t.allocated = 145
      ∧ t.outstanding 0 12 = some ⟨.claimWait 1, 0x03⟩ := by decide +kernel

/-- R3, R7: an absent rail that lists itself and rail 1 has no part in the graph: a CLAIM on rail 1 wakes its parent, rail 0, which
is granted its START at the event (R26). -/
theorem test_absent_record_has_no_children :
    let s := ({ board with rails := .replicate 16 .powerOn, allocated := 0 } : State).setRecord 15
      { RailRecord.powerOn with parents := [15, 1] }
    let t := after (.claim 0 (frame .claim [1, 1])) s
    s.childrenOf 1 = [8, 9] ∧ (t.rail 0).state = .ramping ∧ (t.rail 1).state = .waiting := by decide +kernel

/-- R54: the claimed rail 9 finds BACKFEED at the START it is granted at once; the target of its parent, rail 2 slewing under an
OFF-WAIT, is 0 before and after, so the OFF-WAIT stands. -/
theorem test_target_back_at_0_did_not_rise :
    let s1 := board.modRail 2 fun x =>
      driveLines 2 { x with
        state := .slewing, slewOrigin := some 2, target := 0, held := 35, timer := .running 2
        holdSet := .replicate 16 false }
    let s := (s1.modRail 9 fun _ => { RailRuntime.powerOn with pg := .high }).setOutstanding 1 2 (some ⟨.offWait, 0x21⟩)
    let t := after (.claim 0 (frame .claim [9, 1])) { s with allocated := 115 }
    (t.rail 9).faultKind = some .backfeed ∧ (t.rail 2).state = .slewing ∧ (t.rail 2).target = 0
      ∧ t.outstanding 1 2 = some ⟨.offWait, 0x21⟩ ∧ (t.session 1).queue = [] := by decide +kernel

/-- R54: the teardown lowers the target of rail 2 to 1 for its holder, rail 9, which is then granted its START and finds
BACKFEED: one change of target, from 2 to 0, and rail 2 drains from level 2 (R37). -/
theorem test_whole_fall_of_a_target_drains :
    let s1 := full.modRail 9 fun _ =>
      { RailRuntime.powerOn with state := .waiting, target := 1, claims := #v[1, 0, 0, 0], pg := .high }
    let s2 := (s1.modRail 12 fun x => { x with claims := #v[0, 1, 0, 0] }).setRecord 9
      { boardRecords.get 9 with costs := [5] }
    let s := { s2 with allocated := 115, limit := 130, budgetQueue := [⟨12, .start, 20, 1⟩, ⟨9, .start, 5, 0⟩] }
    let t := after (.detach 1 (frame .detach [])) s
    (t.rail 9).faultKind = some .backfeed ∧ (t.rail 2).target = 0 ∧ (t.rail 2).state = .draining
      ∧ (t.rail 2).level = 2 ∧ (t.rail 2).held = 35 ∧ (t.rail 0).state = .slewing ∧ t.allocated = 115 := by
  decide +kernel

/-- 11.3 at 120 ms: the target falls to the other session's claim, and the OFF-WAIT is answered HELD with the new level. -/
theorem test_releaseWithWait_is_held :
    let t := after (.releaseWithWait 1 (buildFrame .release 0x13 [0, 1])) (board.setClaim 0 0 2)
    (t.rail 0).state = .slewing ∧ (t.rail 0).level = 2 ∧ (t.rail 0).held = 55
      ∧ (t.session 1).queue = [⟨.held, some 0, some 0x13, 2, .absent, 20⟩] := by decide +kernel

/-- 11.3 at 135 ms: the CLAIM-WAIT cancelled with the level before the release, the ramp aborted. -/
theorem test_releaseWithoutWait_cancels :
    let t := after (.releaseWithoutWait 0 (frame .release [12, 0])) (busy 1)
    (t.session 0).queue = [⟨.cancelled, some 12, some 0x03, 1, .absent, 20⟩] ∧ (t.rail 12).state = .draining
      ∧ (t.rail 12).drainCause = .normal ∧ (t.rail 12).held = 20 := by decide +kernel

/-! ### Rails -/

/-- 11.5 at 600 ms: PG1 falls; rails 8 and 9 are forced down and 15 is given back. -/
theorem test_pgChangeTaken_finds_pgLost :
    let t := after (.pgChangeTaken 1 .low) board
    (t.rail 1).state = .fault ∧ (t.rail 1).faultKind = some .pgLost ∧ (t.rail 8).drainCause = .parentFault
      ∧ t.allocated = 110
      ∧ (t.session 1).queue = [⟨.forcedOff, some 9, none, 1, .fault (some .pgLost), 20⟩] := by decide +kernel

/-- 11.2 at 18 ms: PG8 taken HIGH in RAMPING. -/
theorem test_pgChangeTaken_reaches_on :
    let s := board.modRail 8 fun x => { x with state := .ramping, timer := .running 4, pg := .low }
    let t := after (.pgChangeTaken 8 .high) s
    (t.rail 8).state = .on ∧ (t.rail 8).timer = .stopped := by decide +kernel

/-- R30: a TIMED rail enters ON at the end of its ramp time, and its CLAIM-WAIT is answered. -/
theorem test_rampTimeExpiry_of_a_timed_rail :
    let t := after (.rampTimeExpiry 12) (busy 1)
    (t.rail 12).state = .on ∧ (t.session 0).queue = [⟨.granted, some 12, some 0x03, 1, .absent, 20⟩] := by decide +kernel

/-- R30: a MONITORED rail whose PG has not come faults with RAMP_TIMEOUT. -/
theorem test_rampTimeExpiry_of_a_monitored_rail :
    let s := board.modRail 8 fun x => { x with state := .ramping, timer := .running 0, pg := .low }
    ((after (.rampTimeExpiry 8) s).rail 8).faultKind = some .rampTimeout := by decide +kernel

/-- R157: rail 12 enters ON and makes its child, rail 3, ready; the BACKFEED of rail 3 stands before the GRANTED of rail 12. -/
theorem test_backfeed_stands_at_its_rail :
    let s := (((busy 1).modRail 3 fun _ =>
        { RailRuntime.powerOn with state := .waiting, target := 1, claims := #v[1, 0, 0, 0], pg := .high }).modRail 12
      fun x => { x with holdSet := Vector.ofFn fun c => c = 3 }).setRecord 3 (row [5] [12] .monitored (1, 0, 1) .keep 0 0)
    (after (.rampTimeExpiry 12) s).session 0 |>.queue =
      [⟨.railFault, some 3, none, 0, .fault (some .backfeed), 20⟩, ⟨.granted, some 12, some 0x03, 1, .absent, 20⟩] := by
  decide +kernel

/-- R40, R33: rail 2 reaches ON at 1, trims to 20, and drains for its target of 0. -/
theorem test_slewTimeExpiry_trims :
    let t := after (.slewTimeExpiry 2) (busy 1)
    (t.rail 2).state = .draining ∧ (t.rail 2).held = 20 ∧ t.allocated = 120 := by decide +kernel

/-- R40: a MONITORED rail at the end of its slew with PG LOW. -/
theorem test_slewTimeExpiry_finds_slewFail :
    let s := board.modRail 0 fun x => { x with state := .slewing, slewOrigin := some 2, timer := .running 0, pg := .low }
    ((after (.slewTimeExpiry 0) s).rail 0).faultKind = some .slewFail := by decide +kernel

/-- 2.14: the parent's drain waits for the child that still drains. -/
theorem test_drainTimeExpiry_waits_for_a_child :
    let t := after (.drainTimeExpiry 1) (busy 1)
    (t.rail 1).state = .draining ∧ (t.rail 1).drainFinished = true := by decide +kernel

/-- 11.5 at 615 ms: rail 8 reaches OFF, gives back 10, and waits again for its claim. -/
theorem test_drainTimeExpiry_reaches_off :
    let t := after (.drainTimeExpiry 8) (busy 1)
    (t.rail 8).state = .waiting ∧ (t.rail 8).held = 0 ∧ t.allocated = 125 := by decide +kernel

theorem test_deferredOff_ends_a_finished_drain :
    let s := (busy 0).modRail 8 fun x => { x with timer := .stopped, drainFinished := true }
    ((after (.deferredOff 8) s).rail 8).state = .off := by decide +kernel

/-- 11.3: a START of 20 that fits once the limit is 160. -/
theorem test_startGrant_takes_the_head :
    let t := after (.startGrant 12) { full with limit := 160 }
    (t.rail 12).state = .ramping ∧ t.allocated = 160 ∧ t.budgetQueue = [] := by decide +kernel

/-- R6, R81: a release lowers the amount of the head to 0, which fits although allocated is above the limit. -/
theorem test_head_of_amount_0_fits :
    let s1 := board.modRail 2 fun x =>
      driveLines 2 { x with
        state := .waiting, level := 0, held := 0, target := 2, claims := #v[1, 2, 0, 0], holdSet := .replicate 16 false }
    let s := (s1.modRail 9 fun _ => .powerOn).setRecord 2 { boardRecords.get 2 with costs := [0, 35] }
    let t := after (.releaseWithoutWait 1 (frame .release [2, 0]))
      { s with allocated := 80, limit := 60, budgetQueue := [⟨2, .start, 35, 1⟩] }
    (t.rail 2).state = .ramping ∧ (t.rail 2).level = 1 ∧ t.allocated = 80 ∧ t.budgetQueue = [] := by decide +kernel

/-- R92: the PG line of a rail granted a START is HIGH already. -/
theorem test_startGrant_finds_backfeed :
    let s := { full with limit := 160, records := full.records.set 12 (row [20] [] .monitored (150, 0, 20) .shed 1 0) }
    let t := after (.startGrant 12) (s.modRail 12 fun x => { x with pg := .high })
    (t.rail 12).state = .fault ∧ (t.rail 12).faultKind = some .backfeed ∧ t.allocated = 140 := by decide +kernel

/-- 11.3 at 125 ms: the RAISE of 15 of rail 2, granted at 145. -/
theorem test_raiseGrant_takes_the_head :
    let s := (board.modRail 2 fun x => { x with target := 2 }).setClaim 1 2 2
    let t := after (.raiseGrant 2) { s with allocated := 130, budgetQueue := [⟨2, .raise, 15, 1⟩] }
    (t.rail 2).state = .slewing ∧ (t.rail 2).slewOrigin = some 1 ∧ (t.rail 2).held = 35 ∧ t.allocated = 145 := by
  decide +kernel

/-- 11.5 at 630 ms: a hold makes no holder. -/
theorem test_clearFault_needs_a_claim :
    let s := board.modRail 1 fun x => { x with state := .fault, faultLatch := true, faultKind := some .pgLost }
    statusOn (after (.clearFault 0 (frame .clearFault [1])) s) 0 = some 0x24 := by decide +kernel

/-- 11.5 at 634 ms: OFF, on to WAITING, ready, and granted at the same event: OK, RAMPING. -/
theorem test_clearFault_restarts_the_rail :
    let s := (board.modRail 1 fun x =>
      { x with
        state := .fault, level := 0, held := 0, faultLatch := true, faultKind := some .pgLost, faultCount := 1, pg := .low
        claims := #v[1, 0, 0, 0] })
    let t := after (.clearFault 0 (frame .clearFault [1])) s
    statusOn t 0 = some 0x00 ∧ dataOn t 0 = [0x02] ∧ (t.rail 1).faultCount = 1 ∧ (t.rail 1).faultLatch = false := by
  decide +kernel

/-! ### Supply -/

/-- 11.4 at 200 ms: LOW, limit 80; rail 9 drains, and session 1 is told in this order. -/
theorem test_fallBelowWarn_sheds :
    let t := after (.fallBelowWarn 2850) board
    t.supply.state = .low ∧ t.limit = 80 ∧ (t.rail 9).state = .draining ∧ (t.rail 2).target = 1
      ∧ (t.session 1).queue =
        [⟨.supplyChange, none, none, 0, .supply .low, 20⟩, ⟨.suspended, some 9, none, 1, .supply .low, 20⟩] := by
  decide +kernel

/-- R114: a level at WARN is not below it. -/
theorem test_fallBelowWarn_at_warn_is_no_crossing : after (.fallBelowWarn 3000) board = { board with sense := 3000 } := by
  decide +kernel

/-- R123: everything that runs drains with cause COLLAPSE. -/
theorem test_fallBelowCrit_drains_everything :
    let t := after (.fallBelowCrit 2699) board
    t.supply.state = .collapse ∧ t.limit = 0
      ∧ ∀ r : Rail, (board.rail r).state = .on → (t.rail r).state = .draining ∧ (t.rail r).drainCause = .collapse := by
  decide +kernel

/-- R115: from COLLAPSE to LOW above 2.80 V. -/
theorem test_riseAboveCritBand_leads_to_low :
    let s := { State.reset with part := boardPart, lifecycle := .committed, supply := ⟨true, .collapse, .below, .below, .stopped⟩ }
    (after (.riseAboveCritBand 2801) s).supply = ⟨true, .low, .below, .above, .stopped⟩ := by decide +kernel

/-- 11.4 at 300 ms: RECOVERING, with a holdoff of 200 ms. -/
theorem test_riseAboveWarnBand_starts_the_holdoff :
    let s := { State.reset with part := boardPart, lifecycle := .committed, supply := ⟨true, .low, .below, .above, .stopped⟩ }
    (after (.riseAboveWarnBand 3200) s).supply = ⟨true, .recovering, .above, .above, .running 200⟩ := by decide +kernel

/-- 11.4 at 500 ms: NORMAL, limit 150. -/
theorem test_holdoffExpiry_returns_to_normal :
    let s := { State.reset with
      part := boardPart, lifecycle := .committed, limit := 80, supply := ⟨true, .recovering, .above, .above, .running 0⟩ }
    let t := after .holdoffExpiry s
    t.supply = ⟨true, .normal, .above, .above, .stopped⟩ ∧ t.limit = 150 := by decide +kernel

/-! ### Commissioning -/

/-- R190: the rail record of rail 2 of 11.1 as a master writes it: defined, TIMED, SHED, priority 1, one parent; two levels. -/
theorem test_writeRail_reads_the_layout :
    let t := after (.writeRail 0 (frame .writeRail [2, 0xE9, 0x20, 8, 4, 10, 0, 20, 0, 35, 0]))
      { blank with records := .replicate 16 .powerOn }
    statusOn t 0 = some 0x00 ∧ t.record 2 = boardRecords.get 2 := by decide +kernel

/-- R190: a length that the record does not name. -/
theorem test_writeRail_refuses_another_length :
    statusOn (after (.writeRail 0 (frame .writeRail [2, 0xE9, 0x20, 8, 4, 10, 0, 20, 0, 35])) blank) 0 = some 0x22 := by
  decide +kernel

/-- R190: the part record of 11.1. -/
theorem test_writePart_reads_the_layout :
    (after (.writePart 0 (frame .writePart [0x09, 0x60, 0x50, 0x30, 0x64, 0x14])) { blank with part := .powerOn }).part
      = boardPart := by decide +kernel

theorem test_readPart_returns_the_layout :
    dataOn (after (.readPart 0 (frame .readPart [])) blank) 0 = [0x09, 0x60, 0x50, 0x30, 0x64, 0x14] := by decide +kernel

/-- R190: a rail that has never been written reads back as six bytes. -/
theorem test_readRail_of_an_unwritten_rail :
    dataOn (after (.readRail 0 (frame .readRail [7])) blank) 0 = [7, 0, 0, 0, 0, 0] := by decide +kernel

/-- 11.1: the board is committed in NORMAL with its limit of 150. -/
theorem test_commit_activates_the_board :
    let t := after (.commit 0 (frame .commit []) 3300) blank
    statusOn t 0 = some 0x00 ∧ dataOn t 0 = [0x00] ∧ t.lifecycle = .committed ∧ t.limit = 150 := by decide +kernel

/-- 9.5, event 5: rails 1 and 4 stand on each other, and the lower number is reported; rail 9 only stands below them. -/
theorem test_commit_reports_the_cycle :
    let records : Vector RailRecord 16 := Vector.ofFn fun r =>
      match r.val with
      | 0 => row [40, 60, 90] [] .timed (1, 1, 1) .keep 0 0
      | 1 => row [20] [4] .timed (1, 1, 1) .keep 0 0
      | 4 => row [15, 25, 30] [1] .timed (1, 1, 1) .keep 0 0
      | 9 => row [10] [4] .timed (1, 1, 1) .keep 0 0
      | _ => .powerOn
    let t := after (.commit 0 (frame .commit []) 3300) { blank with records := records }
    statusOn t 0 = some 0x27 ∧ dataOn t 0 = [0x0A, 1] ∧ t.lifecycle = .uncommitted := by decide +kernel

/-! ### Resets and time -/

/-- R139: the session of the link is gone, and its claim with it. -/
theorem test_linkReset_detaches :
    let t := after (.linkReset 0) board
    (t.session 0).state = .detached ∧ t.claim 0 8 = 0 ∧ (t.link 0).receiver = .idle ∧ (t.link 0).lrstn = .low := by
  decide +kernel

theorem test_linkResetRelease_leaves_idle :
    (after (.linkResetRelease 0) (board.modLink 0 fun x => { x with lrstn := .low, receiver := .idle })).link 0
      = ⟨.idle, .low, .high⟩ := by decide +kernel

/-- R50: the running rails drain with cause RESTART, and the counter starts again. -/
theorem test_warmReset_drains_with_restart :
    let t := after (.warmReset 3300) board
    t.timestamp = 0 ∧ t.lifecycle = .committed
      ∧ ∀ r : Rail, (board.rail r).state = .on → (t.rail r).state = .draining ∧ (t.rail r).drainCause = .restart := by
  decide +kernel

theorem test_warmResetRelease_raises_the_line :
    after .warmResetRelease { board with resetn := .low } = board := by decide +kernel

theorem test_powerOnReset_forgets_the_table :
    let t := after .powerOnReset board
    t.lifecycle = .uncommitted ∧ t.record 0 = .powerOn ∧ t.allocated = 0 := by decide +kernel

/-- R158: the counter wraps from 65535 to 0. -/
theorem test_timestampTick_wraps :
    let t := after .timestampTick { board with timestamp := 65535 }
    t.timestamp = 0 ∧ (t.session 0).leaseTimer = .running 899 := by decide +kernel

/-! ### The step -/

theorem test_step_takes_the_front :
    ∃ t, step { board with pending := [.timestampTick, .holdoffExpiry] } = .next t
      ∧ t.pending = [.holdoffExpiry] ∧ t.timestamp = 21 := ⟨_, rfl, by decide +kernel, by decide +kernel⟩

/-! ### States and operands that meet the hypotheses of the statements

Each theorem gives, for every hypothesis or clause of the statement in its name, values that meet it. -/

/-- A step from the board, with a rail's fault waiting to be found. -/
def waiting : State := { board with pending := [.pgChangeTaken 1 .low] }

theorem coherent_waiting : Coherent waiting :=
  coherent_of_facts (ms := 900) (by decide +kernel) (by decide +kernel) (by decide +kernel) (by decide +kernel)
    (by decide +kernel) (by decide +kernel)

theorem witness_StepRunsTheFrontCommand :
    (∃ (c : Instr) (rest : List Instr) (s : State), s.pending = c :: rest) ∧ ∃ s : State, s.pending = [] :=
  ⟨⟨.pgChangeTaken 1 .low, [], waiting, rfl⟩, board, rfl⟩

theorem witness_StepsKeepCoherence : ∃ s t : State, Coherent s ∧ step s = .next t := ⟨_, _, coherent_waiting, rfl⟩

theorem witness_StepsKeepLines : ∃ s t : State, LinesFollow s ∧ step s = .next t := ⟨_, _, coherent_waiting.lines, rfl⟩

theorem witness_StepsKeepBudgetBalanced : ∃ s t : State, BudgetBalanced s ∧ step s = .next t :=
  ⟨_, _, coherent_waiting.balanced, rfl⟩

theorem witness_StepsKeepBudgetWithin : ∃ s t : State, BudgetWithin s ∧ s.lifecycle = .committed ∧ step s = .next t :=
  ⟨_, _, coherent_waiting.within, rfl, rfl⟩

theorem witness_StepsKeepRecordsShaped : ∃ s t : State, RecordsShaped s ∧ step s = .next t :=
  ⟨_, _, coherent_waiting.shape, rfl⟩

theorem witness_StepsKeepSessionsSound : ∃ s t : State, SessionsSound s ∧ step s = .next t :=
  ⟨_, _, coherent_waiting.sessions, rfl⟩

theorem witness_StepsKeepHoldsExact : ∃ s t : State, HoldsExact s ∧ IdleBeforeCommit s ∧ step s = .next t :=
  ⟨_, _, coherent_waiting.holds, coherent_waiting.idle, rfl⟩

theorem witness_StepsKeepQueueExact : ∃ s t : State, QueueExact s ∧ IdleBeforeCommit s ∧ step s = .next t :=
  ⟨_, _, { toQueueKept := coherent_waiting.kept, head := coherent_waiting.head }, coherent_waiting.idle, rfl⟩

theorem witness_TableIsWrittenByWritesAlone : ∃ (c : Instr) (s t : State), exec c s = .next t :=
  ⟨.writePart 0 (frame .writePart [0, 0, 0, 0, 0, 0]), blank, _, rfl⟩

theorem witness_ClaimsAreWrittenByTheirSession :
    ∃ (c : Instr) (s t : State) (l : Link) (r : Rail), exec c s = .next t ∧ t.claim l r ≠ s.claim l r :=
  ⟨.claim 0 (frame .claim [0, 2]), board, _, 0, 0, rfl, by decide +kernel⟩

/-- Rail 1 in FAULT, session 0 with a claim on it. -/
def faulted : State :=
  board.modRail 1 fun x =>
    { x with
      state := .fault, level := 0, held := 0, faultLatch := true, faultKind := some .pgLost, faultCount := 1, pg := .low
      claims := #v[1, 0, 0, 0] }

theorem witness_FaultIsLeftByClearOrReset :
    ∃ (c : Instr) (s t : State) (r : Rail), exec c s = .next t ∧ (s.rail r).state = .fault :=
  ⟨.clearFault 0 (frame .clearFault [1]), faulted, _, 1, rfl, by decide +kernel⟩

theorem witness_PgAndCounterHaveTheirOwnWriters :
    (∃ (c : Instr) (s t : State) (r : Rail), exec c s = .next t ∧ (t.rail r).pg ≠ (s.rail r).pg)
      ∧ ∃ (c : Instr) (s t : State), exec c s = .next t ∧ t.timestamp ≠ s.timestamp :=
  ⟨⟨.pgChangeTaken 1 .low, board, _, 1, rfl, by decide +kernel⟩, .timestampTick, board, _, rfl, by decide +kernel⟩

theorem witness_RequestsLeaveOtherLinksAlone :
    ∃ (c : Instr) (k : Kind) (l m : Link) (f : Frame) (s t : State),
      c.request? = some (k, l, f) ∧ exec c s = .next t ∧ m ≠ l ∧ k ≠ .commit :=
  ⟨.claim 0 (frame .claim [0, 2]), .claim, 0, 1, frame .claim [0, 2], board, _, rfl, rfl, by decide, by decide⟩

/-- Check 1 of R182 by a CRC that is wrong, by a length byte of 33, and by a length the kind does not allow; check 2. -/
theorem witness_BadFramesAreRefused :
    (∃ f : Frame, (Instr.renew 0 f).request? = some (.renew, 0, f) ∧ f.wf = true ∧ (board.link 0).receiver = .request
      ∧ f.crc ≠ crc8 (kindByteOf .renew f.kind :: f.tag :: f.length :: f.args))
      ∧ (∃ f : Frame, f.wf = true ∧ f.length.toNat = 33)
      ∧ (∃ f : Frame, f.wf = true ∧ f.length.toNat ≤ 32
        ∧ f.crc = crc8 (kindByteOf .renew f.kind :: f.tag :: f.length :: f.args) ∧ f.kind ≠ .own)
      ∧ ∃ f : Frame, f.wf = true ∧ f.length.toNat = 32
        ∧ f.crc = crc8 (kindByteOf .renew f.kind :: f.tag :: f.length :: f.args) ∧ f.kind = .own
        ∧ Kind.renew.allowsLength f.length.toNat = false :=
  ⟨⟨{ frame .renew [] with crc := 0 }, rfl, by decide +kernel⟩,
    ⟨⟨.own, 0, 33, [], 0⟩, by decide +kernel⟩,
    ⟨⟨.unlisted ⟨0x77, by decide⟩, 0, 0, [], crc8 [0x77, 0, 0]⟩, by decide +kernel⟩,
    frame .renew (.replicate 32 0), by decide +kernel⟩

theorem witness_SessionAndLifecycleChecksRefuse :
    ((board.session 2).state = .detached ∧ (board.link 2).receiver = .request
        ∧ frameRefusal .claim (frame .claim [0, 1]) = none)
      ∧ ((board.session 0).state = .attached ∧ (board.link 0).receiver = .request
        ∧ frameRefusal .attach (frame .attach [1, 0]) = none)
      ∧ (let s := board.modSession 2 fun x => { x with state := .expired };
        (s.session 2).state = .expired ∧ (s.link 2).receiver = .request
          ∧ frameRefusal .claim (frame .claim [0, 1]) = none)
      ∧ (blank.lifecycle = .uncommitted ∧ (blank.session 0).state = .attached ∧ (blank.link 0).receiver = .request
        ∧ frameRefusal .clearFault (frame .clearFault [0]) = none)
      ∧ board.lifecycle = .committed ∧ frameRefusal .commit (frame .commit []) = none := by decide +kernel

/-- A lease of 1 unit, and mask bytes on either side of bit 5. -/
theorem witness_AttachOpensTheSession :
    Passes board .attach 2 (frame .attach [1, 31]) ∧ argByte (frame .attach [1, 31]) 0 ≠ 0
      ∧ (argByte (frame .attach [1, 31]) 1).toNat < 32
      ∧ Passes board .attach 2 (frame .attach [0, 0]) ∧ argByte (frame .attach [0, 0]) 0 = 0
      ∧ Passes board .attach 2 (frame .attach [1, 32]) ∧ 32 ≤ (argByte (frame .attach [1, 32]) 1).toNat :=
  ⟨⟨by decide +kernel, by decide +kernel, by decide +kernel, by decide +kernel⟩, by decide +kernel, by decide +kernel,
    ⟨by decide +kernel, by decide +kernel, by decide +kernel, by decide +kernel⟩, by decide +kernel,
    ⟨by decide +kernel, by decide +kernel, by decide +kernel, by decide +kernel⟩, by decide +kernel⟩

/-- Session 2 EXPIRED. -/
def expired : State := board.modSession 2 fun x => { x with state := .expired, leaseLength := 1 }

theorem witness_RenewRestartsTheLease :
    ((board.link 0).receiver = .request ∧ frameRefusal .renew (frame .renew []) = none
        ∧ (board.session 0).state = .attached)
      ∧ (board.session 2).state = .detached ∧ (board.link 2).receiver = .request
      ∧ ((expired.session 2).state = .expired ∧ (expired.link 2).receiver = .request)
      ∧ (Instr.queryPart 0 (frame .queryPart [])).request? = some (.queryPart, 0, frame .queryPart [])
      ∧ frameRefusal .queryPart (frame .queryPart []) = none := by decide +kernel

theorem witness_DetachEndsTheSession :
    ((board.link 1).receiver = .request ∧ frameRefusal .detach (frame .detach []) = none
        ∧ (board.session 1).state = .attached)
      ∧ ((expired.session 2).state = .expired ∧ (expired.link 2).receiver = .request)
      ∧ (board.session 3).state = .detached ∧ (board.link 3).receiver = .request := by decide +kernel

theorem witness_LeaseExpiryAndLinkResetTearDown :
    (let s := (busy 1).modSession 0 fun x => { x with leaseTimer := .running 0 };
      (s.session 0).state = .attached ∧ (s.session 0).leaseTimer = .running 0)
      ∧ (board.link 1).lrstn = .high := by decide +kernel

/-- Session 0 with two records waiting. -/
def informed : State :=
  board.modSession 0 fun x =>
    { x with
      queue := [⟨.granted, some 8, some 0x01, 1, .absent, 18⟩, ⟨.supplyChange, none, none, 0, .supply .low, 19⟩]
      lost := 255
      alertn := .low }

theorem witness_FetchReturnsTheHead :
    (Passes informed .fetchEvent 0 (frame .fetchEvent []) ∧ ∃ e rest, (informed.session 0).queue = e :: rest)
      ∧ Passes board .fetchEvent 0 (frame .fetchEvent []) ∧ (board.session 0).queue = [] :=
  ⟨⟨⟨by decide +kernel, by decide +kernel, by decide +kernel, by decide +kernel⟩, _, _, rfl⟩,
    ⟨by decide +kernel, by decide +kernel, by decide +kernel, by decide +kernel⟩, by decide +kernel⟩

/-- The board with the room of session 0 used up to `n` slots. -/
def roomed (n : Nat) : State :=
  board.modSession 0 fun x =>
    { x with queue := .replicate n ⟨.supplyChange, none, none, 0, .supply .low, 0⟩, alertn := .low }

/-- A rail number of 16 and one of an absent rail; a level of 0 and one above the level count; a room of 24. -/
theorem witness_ClaimAndReleaseChecksRefuse :
    (∀ b ∈ [(16 : Byte), 3], Passes board .claim 0 (frame .claim [b, 1]) ∧ ∀ r : Rail, ¬ Names board (frame .claim [b, 1]) r)
      ∧ (∀ v ∈ [(0 : Byte), 4], Passes board .claim 0 (frame .claim [0, v]) ∧ Names board (frame .claim [0, v]) 0
        ∧ (argByte (frame .claim [0, v]) 1 = 0
          ∨ (board.record 0).levelCount.toNat < (argByte (frame .claim [0, v]) 1).toNat))
      ∧ (Passes (roomed 24) .claim 0 (frame .claim [0, 3]) ∧ Names (roomed 24) (frame .claim [0, 3]) 0
        ∧ 24 ≤ ((roomed 24).session 0).roomUsed)
      ∧ (Passes board .release 0 (frame .release [16, 1]) ∧ ∀ r : Rail, ¬ Names board (frame .release [16, 1]) r)
      ∧ (Passes board .release 0 (frame .release [0, 2]) ∧ Names board (frame .release [0, 2]) 0
        ∧ 2 ≤ (argByte (frame .release [0, 2]) 1).toNat)
      ∧ Passes (roomed 24) .release 0 (frame .release [0, 1]) ∧ Names (roomed 24) (frame .release [0, 1]) 0
      ∧ argByte (frame .release [0, 1]) 1 = 1 := by
  unfold Names
  refine ⟨fun b hb => ⟨⟨?_, ?_, ?_, ?_⟩, ?_⟩, fun v hv => ⟨⟨?_, ?_, ?_, ?_⟩, ?_, ?_⟩,
    ⟨⟨?_, ?_, ?_, ?_⟩, ?_, ?_⟩, ⟨⟨?_, ?_, ?_, ?_⟩, ?_⟩, ⟨⟨?_, ?_, ?_, ?_⟩, ?_, ?_⟩, ⟨?_, ?_, ?_, ?_⟩, ?_, ?_⟩
  all_goals first
    | decide +kernel
    | (revert b hb; decide +kernel)
    | (revert v hv; decide +kernel)

/-- A level of 1 and the level count 3, with a room of 23. -/
theorem witness_ClaimIsTaken :
    ∀ v ∈ [(1 : Byte), 3], Passes (roomed 23) .claim 0 (frame .claim [0, v]) ∧ Names (roomed 23) (frame .claim [0, v]) 0
      ∧ argByte (frame .claim [0, v]) 1 ≠ 0
      ∧ (argByte (frame .claim [0, v]) 1).toNat ≤ ((roomed 23).record 0).levelCount.toNat
      ∧ ((roomed 23).session 0).roomUsed < 24 := by
  unfold Names
  intro v hv
  refine ⟨⟨?_, ?_, ?_, ?_⟩, ?_, ?_, ?_, ?_⟩ <;> first | decide +kernel | (revert v hv; decide +kernel)

theorem witness_ReleaseWithoutWaitIsTaken :
    Passes (busy 1) .release 0 (frame .release [12, 0]) ∧ Names (busy 1) (frame .release [12, 0]) 12
      ∧ argByte (frame .release [12, 0]) 1 = 0 ∧ (busy 1).outstanding 0 12 = some ⟨.claimWait 1, 0x03⟩ :=
  ⟨⟨by decide +kernel, by decide +kernel, by decide +kernel, by decide +kernel⟩, by unfold Names; decide +kernel,
    by decide +kernel, by decide +kernel⟩

theorem witness_ReleaseWithWaitIsTaken :
    Passes (busy 1) .release 0 (frame .release [12, 1]) ∧ Names (busy 1) (frame .release [12, 1]) 12
      ∧ argByte (frame .release [12, 1]) 1 = 1 ∧ ((busy 1).session 0).roomUsed < 24 :=
  ⟨⟨by decide +kernel, by decide +kernel, by decide +kernel, by decide +kernel⟩, by unfold Names; decide +kernel,
    by decide +kernel, by decide +kernel⟩

/-- Rail 1 in FAULT with a retry limit of 2 and its fault count at `n`. -/
def retried (n : Nat) : State :=
  (faulted.modRail 1 fun x => { x with faultCount := n }).setRecord 1 { boardRecords.get 1 with retryLimit := 2 }

theorem witness_ClearFaultChecksRefuse :
    (Passes faulted .clearFault 0 (frame .clearFault [16]) ∧ ∀ r : Rail, ¬ Names faulted (frame .clearFault [16]) r)
      ∧ (Passes faulted .clearFault 1 (frame .clearFault [1]) ∧ Names faulted (frame .clearFault [1]) 1
        ∧ faulted.claim 1 1 = 0)
      ∧ (Passes faulted .clearFault 0 (frame .clearFault [8]) ∧ Names faulted (frame .clearFault [8]) 8
        ∧ faulted.claim 0 8 ≠ 0 ∧ (faulted.rail 8).faultLatch = false)
      ∧ Passes (retried 2) .clearFault 0 (frame .clearFault [1]) ∧ Names (retried 2) (frame .clearFault [1]) 1
      ∧ (retried 2).claim 0 1 ≠ 0 ∧ ((retried 2).rail 1).faultLatch = true ∧ ((retried 2).record 1).retryLimit ≠ 0
      ∧ ((retried 2).record 1).retryLimit.toNat ≤ ((retried 2).rail 1).faultCount := by
  unfold Names
  refine ⟨⟨⟨?_, ?_, ?_, ?_⟩, ?_⟩, ⟨⟨?_, ?_, ?_, ?_⟩, ?_, ?_⟩, ⟨⟨?_, ?_, ?_, ?_⟩, ?_, ?_⟩, ⟨?_, ?_, ?_, ?_⟩, ?_⟩ <;>
    decide +kernel

/-- Rail 12, MONITORED here, in FAULT under the claim of session 0; with `low`, in LOW, where that claim is suspended. -/
def downed (low : Bool) : State :=
  let s1 := (board.modRail 12 fun x =>
    { x with
      state := .fault, target := if low then 0 else 1, claims := #v[1, 0, 0, 0], suspended := low
      faultLatch := true, faultKind := some .pgLost, faultCount := 1 }).setRecord 12
        (row [20] [] .monitored (150, 0, 20) .shed 1 0)
  if low then
    let s2 := (s1.modRail 9 fun _ => { RailRuntime.powerOn with claims := #v[0, 1, 0, 0], suspended := true }).modRail 2
      fun _ => { RailRuntime.powerOn with suspended := true }
    let s3 := (s2.modRail 0 fun x => { x with holdSet := Vector.ofFn fun c => c = 1 }).modRail 1
      fun x => { x with holdSet := Vector.ofFn fun c => c = 8 }
    { s3 with allocated := 80, limit := 80, supply := { s3.supply with state := .low } }
  else s1

/-- A target of 0 and one above it, both in a coherent state. -/
theorem witness_ClearFaultIsTaken_coherent :
    ∀ low : Bool, Coherent (downed low) ∧ Passes (downed low) .clearFault 0 (frame .clearFault [12])
      ∧ Names (downed low) (frame .clearFault [12]) 12 ∧ (downed low).claim 0 12 ≠ 0
      ∧ ((downed low).rail 12).faultLatch = true ∧ ((downed low).record 12).retryLimit = 0
      ∧ (((downed low).rail 12).target = 0 ↔ low = true) := by
  intro low
  refine ⟨coherent_of_facts (ms := 900) ?_ ?_ ?_ ?_ ?_ ?_, ⟨?_, ?_, ?_, ?_⟩, ?_, ?_⟩
  all_goals
    try unfold Names
    revert low
    decide +kernel

theorem witness_ClearFaultIsTaken :
    (Passes faulted .clearFault 0 (frame .clearFault [1]) ∧ Names faulted (frame .clearFault [1]) 1
        ∧ faulted.claim 0 1 ≠ 0 ∧ (faulted.rail 1).faultLatch = true ∧ (faulted.record 1).retryLimit = 0)
      ∧ Passes (retried 1) .clearFault 0 (frame .clearFault [1]) ∧ Names (retried 1) (frame .clearFault [1]) 1
      ∧ (retried 1).claim 0 1 ≠ 0 ∧ ((retried 1).rail 1).faultLatch = true
      ∧ ((retried 1).rail 1).faultCount < ((retried 1).record 1).retryLimit.toNat := by
  unfold Names
  refine ⟨⟨⟨?_, ?_, ?_, ?_⟩, ?_⟩, ⟨?_, ?_, ?_, ?_⟩, ?_⟩ <;> decide +kernel

/-- Each of the four faults that a command of its own finds. -/
theorem witness_FoundFaultEntersFault :
    Finds (board.modRail 8 fun x => { x with state := .ramping, timer := .running 0, pg := .low }) (.rampTimeExpiry 8) 8
        .rampTimeout
      ∧ Finds board (.pgChangeTaken 1 .low) 1 .pgLost
      ∧ Finds (board.modRail 0 fun x => { x with state := .slewing, timer := .running 0, pg := .low }) (.slewTimeExpiry 0) 0
        .slewFail
      ∧ Finds (board.modRail 9 fun x => { x with state := .draining, timer := .running 0 }) (.drainTimeExpiry 9) 9
        .drainStuck :=
  ⟨.rampTimeout 8 (by decide +kernel) (by decide +kernel) (by decide +kernel),
    .pgLost 1 (by decide +kernel) (by decide +kernel) (by decide +kernel) (by decide +kernel),
    .slewFail 0 (by decide +kernel) (by decide +kernel) (by decide +kernel) (by decide +kernel),
    .drainStuck 9 (by decide +kernel) (by decide +kernel) (by decide +kernel) (by decide +kernel)⟩

/-- PG0 falls on the board: rail 1 is forced as a child, rail 8 as a child of rail 1. -/
theorem witness_CascadeForcesRunningDescendants :
    Finds board (.pgChangeTaken 0 .low) 0 .pgLost ∧ Forced board 0 1 ∧ Forced board 0 8
      ∧ (∃ t, exec (.pgChangeTaken 0 .low) board = .next t)
      ∧ (board.session 0).state = .attached ∧ (board.session 0).mask.forcedOff = true ∧ board.claim 0 8 ≠ 0 :=
  have h : Forced board 0 1 := .direct 1 (by decide +kernel) (by decide) (by decide +kernel)
  ⟨.pgLost 0 (by decide +kernel) (by decide +kernel) (by decide +kernel) (by decide +kernel), h,
    .onward 1 8 h (by decide +kernel) (by decide) (by decide +kernel), ⟨_, rfl⟩, by decide +kernel, by decide +kernel,
    by decide +kernel⟩

theorem witness_RailEventsWriteNoMore :
    (∃ (c : Instr) (s t : State) (r : Rail), c = .rampTimeExpiry r ∧ exec c s = .next t ∧ t.rails ≠ s.rails)
      ∧ ∃ (s t : State) (r : Rail) (level : Line), exec (.pgChangeTaken r level) s = .next t ∧ t.rails ≠ s.rails :=
  ⟨⟨_, busy 1, _, 12, rfl, rfl, by decide +kernel⟩, board, _, 1, .low, rfl, by decide +kernel⟩

/-- An uncommitted part; a TIMED rail; a rail in ON whose PG goes HIGH. -/
theorem witness_OtherPgChangesAreOnlyTaken :
    blank.lifecycle = .uncommitted ∧ board.monitored 2 = false
      ∧ ((board.rail 0).state = .on ∧ ¬ ((board.rail 0).state = .ramping ∧ Line.high = .high)
        ∧ ¬ ((board.rail 0).state = .on ∧ Line.high = .low)) := by decide +kernel

/-- Rail 0 of the board at the end of a slew to level 3, its claim lowered to 2 meanwhile. -/
def lowered : State :=
  board.modRail 0 fun x =>
    driveLines 0 { x with
      state := .slewing, slewOrigin := some 1, timer := .running 0, target := 2, claims := #v[0, 2, 0, 0] }

theorem witness_EndedRampOrSlewReachesOn :
    (Reaches (busy 1) (.rampTimeExpiry 12) 12 ∧ Coherent (busy 1) ∧ ((busy 1).rail 12).target = ((busy 1).rail 12).level
        ∧ ((after (.rampTimeExpiry 12) (busy 1)).rail 12).target = ((busy 1).rail 12).target
        ∧ ((busy 1).session 0).state = .attached ∧ (busy 1).outstanding 0 12 = some ⟨.claimWait 1, 0x03⟩
        ∧ 1 ≤ ((busy 1).rail 12).level)
      ∧ (Reaches (busy 1) (.slewTimeExpiry 2) 2 ∧ Coherent (busy 1) ∧ ((busy 1).rail 2).target = 0)
      ∧ Reaches (board.modRail 8 fun x => { x with state := .ramping, timer := .running 4, pg := .low })
        (.pgChangeTaken 8 .high) 8
      ∧ Reaches lowered (.slewTimeExpiry 0) 0 ∧ Coherent lowered ∧ (lowered.rail 0).target ≠ 0
      ∧ (lowered.rail 0).target < (lowered.rail 0).level :=
  ⟨⟨.ramped 12 (by decide +kernel) (by decide +kernel) (by decide +kernel), coherent_busy, by decide +kernel,
      by decide +kernel, by decide +kernel, by decide +kernel, by decide +kernel⟩,
    ⟨.slewed 2 (by decide +kernel) (by decide +kernel) (.inl (by decide +kernel)), coherent_busy, by decide +kernel⟩,
    .pgGood 8 (by decide +kernel) (by decide +kernel) (by decide +kernel) (by decide +kernel),
    .slewed 0 (by decide +kernel) (by decide +kernel) (.inr (by decide +kernel)),
    coherent_of_facts (ms := 900) (by decide +kernel) (by decide +kernel) (by decide +kernel) (by decide +kernel)
      (by decide +kernel) (by decide +kernel), by decide +kernel⟩

/-- Rail 8 of `busy`, its drain marked finished although no child holds it. -/
def unfinished : State :=
  (busy 0).modRail 8 fun x => { x with timer := .stopped, drainFinished := true }

theorem witness_DrainsEndOnceNoDrainingChildHolds :
    (Coherent (busy 1) ∧ ((busy 1).rail 1).state = .draining ∧ ((busy 1).rail 1).timer = .running 0
        ∧ ((busy 1).rail 1).pg = .low ∧ (busy 1).heldByDraining 1 = true)
      ∧ (Coherent (busy 0) ∧ ((busy 0).rail 8).state = .draining ∧ ((busy 0).rail 8).timer = .running 0
        ∧ ((busy 0).rail 8).pg = .low ∧ (busy 0).heldByDraining 8 = false ∧ ((busy 0).rail 8).target = 0)
      ∧ (((busy 1).rail 8).timer = .running 0 ∧ (busy 1).heldByDraining 8 = false ∧ ((busy 1).rail 8).target ≠ 0)
      ∧ ((unfinished.rail 8).state = .draining ∧ unfinished.heldByDraining 8 = false
        ∧ (unfinished.rail 8).drainFinished = true
        ∧ Coherent
          { unfinished with
            rails := unfinished.rails.set (8 : Rail).val
              { unfinished.rail 8 with timer := .running 0, drainFinished := false } (8 : Rail).isLt }) :=
  ⟨⟨coherent_busy, by decide +kernel⟩, ⟨coherent_busy_released, by decide +kernel⟩, by decide +kernel, by decide +kernel,
    by decide +kernel, by decide +kernel,
    coherent_of_facts (ms := 900) (by decide +kernel) (by decide +kernel) (by decide +kernel) (by decide +kernel)
      (by decide +kernel) (by decide +kernel)⟩

/-- Session 0 waits for rail 8 to be off. -/
theorem witness_DrainsEndOnceNoDrainingChildHolds_outstanding :
    let s := (busy 0).setOutstanding 0 8 (some ⟨.offWait, 0x22⟩)
    Coherent s ∧ (s.session 0).state = .attached ∧ s.outstanding 0 8 = some ⟨.offWait, 0x22⟩ :=
  ⟨coherent_of_facts (ms := 900) (by decide +kernel) (by decide +kernel) (by decide +kernel) (by decide +kernel)
    (by decide +kernel) (by decide +kernel), by decide +kernel⟩

/-- A CLAIM of rail 12 by session 1 at a level it already ramps to. -/
theorem witness_RampGoesOnToItsLevel :
    ∃ (c : Instr) (s t : State) (r : Rail), Coherent s ∧ exec c s = .next t ∧ (s.rail r).state = .ramping
      ∧ (t.rail r).state = .ramping :=
  ⟨.claim 1 (frame .claim [12, 1]), busy 1, _, 12, coherent_busy, rfl, by decide +kernel, by decide +kernel⟩

/-- Rail 0 of the board in a state, at a level, with a target. -/
def placed (st : RailState) (level target : Nat) : RailRuntime :=
  (board.modRail 0 fun x => { x with state := st, level := level, target := target }).rail 0

theorem witness_TargetChangeActsByState :
    ((placed .off 0 1).state = .off ∧ (placed .off 0 1).target ≠ 0)
      ∧ ((placed .waiting 0 0).state = .waiting ∧ (placed .waiting 0 0).target = 0)
      ∧ ((placed .ramping 1 0).state = .ramping ∧ (placed .ramping 1 0).target = 0)
      ∧ ((placed .on 2 1).state = .on ∧ (placed .on 2 1).target ≠ 0 ∧ (placed .on 2 1).target < (placed .on 2 1).level)
      ∧ ((placed .on 2 2).state = .on ∧ (placed .on 2 2).level ≤ (placed .on 2 2).target ∧ (placed .on 2 2).target ≠ 0)
      ∧ (placed .fault 0 1).state = .fault := by decide +kernel

/-- Four entries in order of priority, two of them alike. -/
theorem witness_JoiningEntryTakesItsPlace :
    ([⟨0, .start, 5, 3⟩, ⟨1, .raise, 5, 1⟩, ⟨2, .start, 5, 1⟩, ⟨3, .start, 5, 0⟩] : List QueueEntry).Pairwise
      fun a b => b.priority ≤ a.priority := by decide

/-- `full` in LOW, with no rail that is shed: allocated stands at 140, above the limit of 80. -/
def short : State :=
  { full with
    records := full.records.map fun x => { x with shedClass := .keep }
    limit := 80
    supply := { full.supply with state := .low } }

/-- A head that just fits: a START of 20 at 140 of 160; the same where PG is HIGH; a START of 0 at 140 of 80; a RAISE of 15 at
125 of 150. -/
def fitting : Fin 4 → State
  | 0 => { full with limit := 160, part := { boardPart with budgetFull := 160 } }
  | 1 =>
    { (full.modRail 12 fun x => { x with pg := .high }).setRecord 12 (row [20] [] .monitored (150, 0, 20) .shed 1 0) with
      limit := 160, part := { boardPart with budgetFull := 160 } }
  | 2 =>
    { short.setRecord 12 (row [0] [] .timed (150, 0, 20) .keep 1 0) with
      budgetQueue := [⟨12, .start, 0, 1⟩] }
  | 3 =>
    { board.modRail 2 fun x => { x with target := 2, claims := #v[0, 2, 0, 0] } with budgetQueue := [⟨2, .raise, 15, 1⟩] }

theorem sound_fitting (i : Fin 4) : Sound (fitting i) := by
  refine sound_of_facts (ms := 900) ?_ ?_ ?_ ?_ ?_ ?_ <;> revert i <;> decide +kernel

/-- Heads that fit, in states that are sound, with PG HIGH and with PG LOW; a START and a RAISE that just do not fit. -/
theorem witness_GrantsMoveTheRail :
    (∀ i : Fin 4, Sound (fitting i))
      ∧ ((fitting 0).budgetQueue.head? = some ⟨12, .start, 20, 1⟩ ∧ (fitting 0).allocated + 20 ≤ (fitting 0).limit
        ∧ (fitting 0).monitored 12 = false)
      ∧ ((fitting 1).budgetQueue.head? = some ⟨12, .start, 20, 1⟩ ∧ (fitting 1).monitored 12 = true
        ∧ ((fitting 1).rail 12).pg = .high)
      ∧ ((fitting 2).budgetQueue.head? = some ⟨12, .start, 0, 1⟩ ∧ (fitting 2).limit < (fitting 2).allocated)
      ∧ ((fitting 3).budgetQueue.head? = some ⟨2, .raise, 15, 1⟩ ∧ (fitting 3).allocated + 15 ≤ (fitting 3).limit)
      ∧ (full.budgetQueue.head? = some ⟨12, .start, 20, 1⟩ ∧ full.requestOf 12 = some (.start, 20)
        ∧ full.limit < full.allocated + 20)
      ∧ (let s := { fitting 3 with limit := 139 };
        s.budgetQueue.head? = some ⟨2, .raise, 15, 1⟩ ∧ s.requestOf 2 = some (.raise, 15)
          ∧ s.limit < s.allocated + 15) :=
  ⟨sound_fitting, by decide +kernel⟩

/-- Allocated stands at 140 and the limit at 80; rail 1 waits for a RAISE that does not fit; rail 12 is OFF and costs nothing,
and the levels 2 and 3 of rail 0, which is at level 2, cost the same. -/
def costless : State :=
  let s1 := (short.setRecord 12 (row [0] [] .timed (150, 0, 20) .keep 1 0)).setRecord 0
    { boardRecords.get 0 with costs := [30, 55, 55] }
  let s2 := (s1.setRecord 1 { boardRecords.get 1 with levelCount := 2, costs := [15, 30], slewTime := 1 }).modRail 12
    fun _ => .powerOn
  let s3 := s2.modRail 0 fun x => driveLines 0 { x with level := 2, target := 2, claims := #v[0, 2, 0, 0] }
  { s3.modRail 1 fun x => { x with target := 2, claims := #v[0, 2, 0, 0] } with budgetQueue := [⟨1, .raise, 15, 2⟩] }

theorem witness_GrantsMoveTheRail_zero :
    Coherent costless
      ∧ (Passes costless .claim 0 (frame .claim [12, 1]) ∧ Names costless (frame .claim [12, 1]) 12
        ∧ (costless.rail 12).state = .off ∧ (∀ p ∈ costless.parentsOf 12, (costless.rail p).state = .on)
        ∧ costless.supply.state ≠ .collapse ∧ (costless.record 12).costOf 1 = 0 ∧ costless.monitored 12 = false)
      ∧ (Passes costless .claim 0 (frame .claim [0, 3]) ∧ Names costless (frame .claim [0, 3]) 0
        ∧ (costless.rail 0).state = .on ∧ costless.queued 0 = false ∧ (costless.rail 0).level < 3
        ∧ (∀ m : Link, m ≠ 0 → costless.claim m 0 ≤ 3)
        ∧ (costless.record 0).costOf 3 = (costless.record 0).costOf (costless.rail 0).level)
      ∧ (costless.session 0).roomUsed < 24 ∧ (costless.rail 12).suspended = false ∧ (costless.rail 0).suspended = false
      ∧ costless.limit < costless.allocated ∧ costless.budgetQueue ≠ [] := by
  refine ⟨coherent_of_facts (ms := 900) ?_ ?_ ?_ ?_ ?_ ?_, ⟨⟨?_, ?_, ?_, ?_⟩, ?_, ?_⟩, ⟨⟨?_, ?_, ?_, ?_⟩, ?_, ?_⟩, ?_⟩
  all_goals
    try unfold Names
    decide +kernel

theorem witness_CrossingsChangeTheSupplyState :
    (Crosses board (.fallBelowWarn 2999) .below .above
        ∧ supplyAfter (.fallBelowWarn 2999) board.supply.state ≠ board.supply.state)
      ∧ (let s := { board with supply := { board.supply with critOut := .below } }
        Crosses s (.riseAboveCritBand 2801) .above .above
          ∧ supplyAfter (.riseAboveCritBand 2801) s.supply.state = s.supply.state)
      ∧ (senseOf (.fallBelowWarn 3000) = some 3000 ∧ ∀ w u : Side, ¬ Crosses board (.fallBelowWarn 3000) w u)
      ∧ ((board.session 1).state = .attached ∧ (board.session 1).roomUsed < 24
        ∧ (let t := after (.fallBelowWarn 2999) board;
          supplyNotices board t 1 .low =
            [⟨.supplyChange, none, none, 0, .supply .low, 20⟩, ⟨.suspended, some 9, none, 1, .supply .low, 20⟩])) := by
  refine ⟨⟨.fallWarn 2999 ?_ ?_ ?_, ?_⟩, ⟨.riseCrit 2801 ?_ ?_ ?_, ?_⟩, ⟨?_, ?_⟩, ?_⟩
  case refine_10 =>
    intro w u h
    cases h with
    | fallWarn _ _ _ hv => exact absurd hv (by decide +kernel)
  all_goals decide +kernel

theorem witness_CollapseDrainsEveryRunningRail :
    Crosses board (.fallBelowCrit 2699) .above .below ∧ board.supply.state ≠ .collapse
      ∧ (∃ t, exec (.fallBelowCrit 2699) board = .next t) ∧ (board.rail 0).state.running = true :=
  ⟨.fallCrit 2699 (by decide +kernel) (by decide +kernel) (by decide +kernel), by decide +kernel, ⟨_, rfl⟩,
    by decide +kernel⟩

theorem witness_HoldoffExpiryReturnsToNormal :
    let s := { board.modRail 9 fun x => { x with suspended := true } with
      supply := ⟨true, .recovering, .above, .above, .running 0⟩ }
    s.supply.active = true ∧ s.supply.state = .recovering ∧ s.supply.holdoff = .running 0
      ∧ (s.session 1).state = .attached
      ∧ supplyNotices s (after .holdoffExpiry s) 1 .normal =
        [⟨.supplyChange, none, none, 0, .supply .normal, 20⟩, ⟨.resumed, some 9, none, 1, .supply .normal, 20⟩] := by
  decide +kernel

/-- A record of 6 bytes for rail 15 and one of 32 bytes; a rail number of 16; a length one short of the record's. -/
theorem witness_WriteRailReplacesTheRecord :
    Passes blank .writeRail 0 (frame .writeRail [15, 0x80, 0, 0, 0, 0])
      ∧ (let f := frame .writeRail ([0, 0x84, 0xB0, 1, 1, 1] ++ .replicate 26 0)
        Passes blank .writeRail 0 f ∧ f.args.length = 6 + 2 * ((f.args.getD 2 0).toNat / 16) + (f.args.getD 1 0).toNat % 8)
      ∧ Passes blank .writeRail 0 (frame .writeRail [16, 0, 0, 0, 0, 0])
      ∧ Passes blank .writeRail 0 (frame .writeRail [0, 0, 0x10, 0, 0, 0, 0]) := by
  refine ⟨⟨?_, ?_, ?_, ?_⟩, ⟨⟨?_, ?_, ?_, ?_⟩, ?_⟩, ⟨?_, ?_, ?_, ?_⟩, ?_, ?_, ?_, ?_⟩ <;> decide +kernel

theorem witness_WritePartReplacesTheRecord :
    Passes blank .writePart 0 (frame .writePart [0xFF, 0xFF, 0xFF, 0xFF, 0xFF, 0xFF]) := by
  refine ⟨?_, ?_, ?_, ?_⟩ <;> decide +kernel

theorem witness_ReadsReturnTheRecords :
    Passes board .readRail 0 (frame .readRail [15]) ∧ Passes board .readRail 0 (frame .readRail [16])
      ∧ Passes board .readPart 0 (frame .readPart []) := by
  refine ⟨⟨?_, ?_, ?_, ?_⟩, ⟨?_, ?_, ?_, ?_⟩, ?_, ?_, ?_, ?_⟩ <;> decide +kernel

/-- A table that passes, and for each reason one that gives it: the part record, the table with no rail, and rail 8 after the
rails 0 to 2 have passed. -/
theorem witness_CommitChecksComeInOrder :
    (commitFault blank = none ∧ (∀ r : Rail, railFaultAt blank r = none))
      ∧ commitFault { blank with part := .powerOn } = some (.noBudget, 0xFF)
      ∧ commitFault { blank with part := { boardPart with budgetLow := 151 } } = some (.badLowBudget, 0xFF)
      ∧ commitFault { blank with part := { boardPart with critCode := 12 } } = some (.badThresholds, 0xFF)
      ∧ commitFault { blank with part := { boardPart with holdoffCode := 0 } } = some (.badHoldoff, 0xFF)
      ∧ commitFault { blank with records := .replicate 16 .powerOn } = some (.noRails, 0xFF)
      ∧ commitFault (blank.setRecord 8 (row [10, 10] [1] .monitored (1, 1, 1) .keep 1 0)) = some (.badLevels, 8)
      ∧ commitFault (blank.setRecord 8 (row [151] [1] .monitored (1, 1, 1) .keep 1 0)) = some (.badCosts, 8)
      ∧ commitFault (blank.setRecord 8 (row [10] [3] .monitored (1, 1, 1) .keep 1 0)) = some (.badParent, 8)
      ∧ commitFault (blank.setRecord 8 (row [10] [1] .monitored (0, 1, 1) .keep 1 0)) = some (.badTimes, 8)
      ∧ commitFault (blank.setRecord 0 (row [30, 20] [] .monitored (20, 64, 30) .keep 3 2)) = some (.badCosts, 0)
      ∧ commitFault (blank.setRecord 0 (row [30, 40] [] .monitored (20, 64, 30) .keep 3 2)) = some (.badTimes, 0) := by
  decide +kernel

theorem witness_FailedCommitChangesNothing :
    let s := { blank with part := .powerOn }
    Passes s .commit 0 (frame .commit []) ∧ commitFault s = some (.noBudget, 0xFF)
      ∧ board.records = blank.records ∧ board.part = blank.part := by
  refine ⟨⟨?_, ?_, ?_, ?_⟩, ?_, ?_, ?_⟩ <;> decide +kernel

theorem witness_AcceptedCommitActivatesThePart :
    Passes blank .commit 0 (frame .commit []) ∧ commitFault blank = none := by
  refine ⟨⟨?_, ?_, ?_, ?_⟩, ?_⟩ <;> decide +kernel

/-- The table of the board, and the same table with rails 1 and 8 on each other's parent lists. -/
theorem witness_CycleCheckFindsTheLowestRail :
    (partFault blank.part = none ∧ (blank.record 0).defined = true ∧ (∀ r : Rail, railFaultAt blank r = none)
        ∧ commitFault blank = none)
      ∧ (let s := blank.setRecord 1 { boardRecords.get 1 with parents := [8] }
        partFault s.part = none ∧ (s.record 0).defined = true ∧ (∀ r : Rail, railFaultAt s r = none)
          ∧ commitFault s = some (.cycle, 1)) := by decide +kernel

theorem witness_QueryRailReportsTheRail :
    Passes board .queryRail 0 (frame .queryRail [15]) ∧ Passes board .queryRail 0 (frame .queryRail [16]) := by
  refine ⟨⟨?_, ?_, ?_, ?_⟩, ?_, ?_, ?_, ?_⟩ <;> decide +kernel

/-- Rail 12 of `full` waits for BUDGET; a rail that does not wait; a rail below a parent in FAULT. -/
theorem witness_WaitReasonFollowsPrecedence :
    (Coherent full ∧ (full.rail 12).state = .waiting ∧ full.waitReason 12 = some .budget)
      ∧ (board.rail 0).state ≠ .waiting
      ∧ (let s := faulted.modRail 8 fun x => { x with state := .waiting };
        (s.rail 8).state = .waiting ∧ ∃ p ∈ s.parentsOf 8, (s.rail p).state = .fault) :=
  ⟨⟨coherent_full, by decide +kernel⟩, by decide +kernel, by decide +kernel⟩

theorem witness_QueryPartReportsThePart :
    Passes full .queryPart 0 (frame .queryPart []) ∧ full.budgetQueue[0]? = some ⟨12, .start, 20, 1⟩ ∧ 20 < 1024 := by
  refine ⟨⟨?_, ?_, ?_, ?_⟩, ?_⟩ <;> decide +kernel

theorem witness_WarmResetRestartsTheRails :
    (Coherent (busy 1) ∧ (busy 1).resetn = .high ∧ (busy 1).lifecycle = .committed
        ∧ ((busy 1).rail 0).state.running = true ∧ ((busy 1).rail 8).state = .draining ∧ ((busy 1).rail 9).state = .off)
      ∧ Coherent full ∧ full.resetn = .high ∧ (full.rail 12).state = .waiting :=
  ⟨⟨coherent_busy, by decide +kernel⟩, coherent_full, by decide +kernel⟩

theorem witness_LinkLinesMoveTheReceiver :
    ((State.reset.link 0).csn = .high ∧ (State.reset.link 0).receiver = .idle ∧ (State.reset.link 0).lrstn = .high
        ∧ State.reset.resetn = .high)
      ∧ (let s := { State.reset with resetn := .low };
        (s.link 0).csn = .high ∧ s.resetn = .low)
      ∧ (board.link 0).csn = .low
      ∧ ((State.reset.modLink 0 fun x => { x with receiver := .response [0x00] }).link 0).receiver = .response [0x00]
      ∧ ((State.reset.modLink 0 fun x => { x with receiver := .done }).link 0).receiver = .done
      ∧ ((Instr.renew 0 (frame .renew [])).request? = some (.renew, 0, frame .renew []) ∧ (board.link 0).receiver = .request)
      ∧ ((State.reset.modLink 0 fun x => { x with lrstn := .low }).link 0).lrstn = .low := by decide +kernel

theorem witness_TicksRunTimersAndExpiriesWaitForThem :
    ¬ ((board.rail 0).state = .ramping ∧ (board.rail 0).timer = .running 0)
      ∧ ¬ ((board.rail 0).state = .slewing ∧ (board.rail 0).timer = .running 0)
      ∧ ¬ ((board.rail 0).state = .draining ∧ (board.rail 0).timer = .running 0)
      ∧ ¬ ((board.session 0).state = .attached ∧ (board.session 0).leaseTimer = .running 0)
      ∧ ¬ (board.supply.active = true ∧ board.supply.state = .recovering ∧ board.supply.holdoff = .running 0)
      ∧ Coherent board := by
  refine ⟨?_, ?_, ?_, ?_, ?_, coherent_board⟩ <;> decide +kernel

/-- A record of eleven costs and four parents, which fills a frame, and its bytes; the largest counts. -/
theorem witness_RecordsRoundTrip :
    (let x : RailRecord := { boardRecords.get 0 with levelCount := 15, costs := .replicate 15 1023, parents := .replicate 7 0 };
      x.costs.length = x.levelCount.toNat ∧ x.parents.length ≤ 7)
      ∧ (let bs : List Byte := [15, 0x84, 0xB0, 1, 1, 1] ++ .replicate 26 0;
        bs.head? = some (BitVec.ofNat 8 (15 : Rail).val) ∧ 6 ≤ bs.length ∧ recordLengthOk bs = true) := by decide +kernel

theorem witness_CrcGuardsTheFrames :
    (⟨.own, 0, 33, [], 0⟩ : Frame).length.toNat = 33
      ∧ ((Instr.renew 0 (frame .renew [])).request? = some (.renew, 0, frame .renew [])
        ∧ (State.reset.link 0).receiver ≠ .request)
      ∧ (List.replicate 32 (0 : Byte)).length ≤ 32 ∧ ¬ (List.replicate 33 (0 : Byte)).length ≤ 32
      ∧ (List.replicate 33 (0 : Byte)).length < 256 := by decide +kernel

end Sys2Proof.Tests
end

/-! ### Readiness and the wait reason (R24) -/

section
namespace Sys2Proof.Machine

/-- The two states in which a rail supplies its children (R24). -/
theorem RailState.up_iff (x : RailState) : x.up = true ↔ x = .on ∨ x = .slewing := by
  cases x <;> simp [RailState.up]

theorem State.ready_iff (s : State) (r : Rail) :
    s.ready r = true ↔
      (s.rail r).state = .waiting ∧ (∀ p ∈ s.parentsOf r, (s.rail p).state = .on ∨ (s.rail p).state = .slewing)
        ∧ s.supply.state ≠ .collapse := by
  simp [State.ready, RailState.up_iff, and_assoc]

theorem State.waitReason_eq_none (s : State) (r : Rail) (h : (s.rail r).state ≠ .waiting) : s.waitReason r = none :=
  if_neg h

/-- The wait reason of a rail in WAITING, in its order of precedence (R24). -/
theorem State.waitReason_of_waiting (s : State) (r : Rail) (h : (s.rail r).state = .waiting) :
    s.waitReason r =
      if ∃ p ∈ s.parentsOf r, (s.rail p).state = .fault then some .parentFault
      else if s.supply.state = .collapse then some .supply
      else if ∃ p ∈ s.parentsOf r, (s.rail p).state ≠ .on ∧ (s.rail p).state ≠ .slewing then some .parents
      else some .budget := by
  have down (p : Rail) :
      (!(s.rail p).state.up) = true ↔ (s.rail p).state ≠ .on ∧ (s.rail p).state ≠ .slewing := by
    rw [Bool.not_eq_true', ← Bool.not_eq_true, RailState.up_iff, not_or]
  simp only [State.waitReason, if_pos h, List.any_eq_true, beq_iff_eq, down]

/-- BUDGET is the last reason: a rail waits for it where nothing but the arbiter holds it back. A parent that is up is not in
FAULT, so readiness rules out the first reason too. -/
theorem State.waitReason_eq_budget_iff (s : State) (r : Rail) : s.waitReason r = some .budget ↔ s.ready r = true := by
  rw [s.ready_iff]
  by_cases hw : (s.rail r).state = .waiting
  · rw [s.waitReason_of_waiting r hw]
    constructor
    · intro h
      split at h
      · cases h
      · split at h
        · cases h
        · next hcollapse =>
          split at h
          · cases h
          · next hdown =>
            exact ⟨hw, fun p hp => Decidable.by_contra fun hup => hdown ⟨p, hp, not_or.mp hup⟩, hcollapse⟩
    · rintro ⟨-, hup, hsupply⟩
      have hfault : ¬ ∃ p ∈ s.parentsOf r, (s.rail p).state = .fault := by
        rintro ⟨p, hp, hf⟩
        simpa [hf] using hup p hp
      have hdown : ¬ ∃ p ∈ s.parentsOf r, (s.rail p).state ≠ .on ∧ (s.rail p).state ≠ .slewing := by
        rintro ⟨p, hp, hd⟩
        exact not_or.mpr hd (hup p hp)
      rw [if_neg hfault, if_neg hsupply, if_neg hdown]
  · simp [s.waitReason_eq_none r hw, hw]

/-- A ready rail asks the arbiter for a START (R76). -/
theorem State.requestOf_of_ready (s : State) (r : Rail) (h : s.ready r = true) :
    s.requestOf r = some (.start, (s.record r).costOf (s.rail r).target) :=
  if_pos h

/-- Where the queue is kept, every ready rail has an entry in it (R76, R79). -/
theorem QueueKept.queued_of_ready {s : State} (hs : QueueKept s) {r : Rail} (h : s.ready r = true) :
    s.queued r = true :=
  hs.every r (by simp [s.requestOf_of_ready r h])

/-- Byte 8 of a QUERY_RAIL response is the wait reason (R191). -/
theorem queryRailData_getElem?_eight (s : State) (l : Link) (r : Rail) :
    (queryRailData s l r)[8]? = some (waitCode (s.waitReason r)) :=
  rfl

/-- Settles O51: each clause is the lemma above that states it; the entry in the queue is the one that the kept queue holds
for the ready rail's START. -/
theorem waitReasonFollowsPrecedence : Obligations.WaitReasonFollowsPrecedence := by
  intro s r
  refine ⟨s.waitReason_eq_none r, s.waitReason_of_waiting r, s.ready_iff r, s.waitReason_eq_budget_iff r, ?_, ?_⟩
  · intro hs hbudget
    exact hs.kept.queued_of_ready ((s.waitReason_eq_budget_iff r).mp hbudget)
  · intro l
    rw [queryRailData_getElem?_eight]
    rcases s.waitReason r with _ | _ | _ | _ | _ <;> rfl

end Sys2Proof.Machine
end

/-! ### The place of a joining entry (R80) -/

section
namespace Sys2Proof.Machine

/-- A joining entry goes past a head of its own priority or a higher one. -/
theorem placeEntry_cons_of_le {e x : QueueEntry} (xs : List QueueEntry) (h : e.priority ≤ x.priority) :
    placeEntry e (x :: xs) = x :: placeEntry e xs :=
  if_pos h

/-- A joining entry goes ahead of a queue of lower priorities, so it becomes the head. -/
theorem placeEntry_of_forall_lt {e : QueueEntry} {q : List QueueEntry} (h : ∀ x ∈ q, x.priority < e.priority) :
    placeEntry e q = e :: q := by
  cases q with
  | nil => rfl
  | cons x xs => exact if_neg (BitVec.not_le.mpr (h x List.mem_cons_self))

/-- Settles O39, by induction on the queue: a head that is not lower is passed and kept in front; behind a lower head an
ordered queue holds only lower entries, so there the two filters keep nothing and everything. -/
theorem joiningEntryTakesItsPlace : Obligations.JoiningEntryTakesItsPlace := by
  intro e q hq
  induction q with
  | nil => rfl
  | cons x xs ih =>
    obtain ⟨hx, hxs⟩ := List.pairwise_cons.mp hq
    by_cases hle : e.priority ≤ x.priority
    · have hnlt : ¬ x.priority < e.priority := BitVec.not_lt.mpr hle
      rw [placeEntry_cons_of_le xs hle, ih hxs]
      simp [hle, hnlt]
    · have hlt : x.priority < e.priority := BitVec.not_le.mp hle
      have hlower : ∀ y ∈ x :: xs, y.priority < e.priority :=
        List.forall_mem_cons.mpr ⟨hlt, fun y hy => Nat.lt_of_le_of_lt (hx y hy) hlt⟩
      have hnone : (x :: xs).filter (fun y => decide (e.priority ≤ y.priority)) = [] :=
        List.filter_eq_nil_iff.mpr fun y hy => by simpa using hlower y hy
      have hall : (x :: xs).filter (fun y => decide (y.priority < e.priority)) = x :: xs :=
        List.filter_eq_self.mpr fun y hy => decide_eq_true (hlower y hy)
      rw [placeEntry_of_forall_lt hlower, hnone, hall, List.nil_append]

end Sys2Proof.Machine
end

/-! ### What a rail may become in the course of one event (R18, R47, R48, R97) -/

section
namespace Sys2Proof.Machine

/-- From `x` to `y`, no more than a rail's own record may undergo as the rails and the arbiter act on an event: it is the rail's
part of `Reaction`. The last two clauses make it transitive: a rail that began a drain does not end it at the same event, so the
cause it drains with is the last one written. -/
structure RailReacts (x y : RailRuntime) : Prop where
  claims : y.claims = x.claims
  suspended : y.suspended = x.suspended
  pg : y.pg = x.pg
  faulted : x.state = .fault → y = { x with target := y.target, holdSet := y.holdSet }
  fault :
    (y.faultLatch = x.faultLatch ∧ y.faultKind = x.faultKind ∧ y.faultCount = x.faultCount)
      ∨ (y.state = .fault ∧ y.faultLatch = true ∧ y.faultKind ≠ none
        ∧ y.faultCount = min (x.faultCount + 1) Config.faultCountMax)
  cause : y.drainCause = x.drainCause ∨ (y.state = .draining ∧ y.drainFinished = false)
  drains : x.state = .draining → x.drainFinished = false → y.state = .draining ∧ y.drainFinished = false

theorem RailReacts.refl (x : RailRuntime) : RailReacts x x :=
  ⟨rfl, rfl, rfl, fun _ => rfl, .inl ⟨rfl, rfl, rfl⟩, .inl rfl, fun h h' => ⟨h, h'⟩⟩

/-- A rail that is in FAULT stays there with its fault. -/
theorem RailReacts.fault_stays {x y : RailRuntime} (h : RailReacts x y) (hx : x.state = .fault) :
    y.state = .fault ∧ y.faultLatch = x.faultLatch ∧ y.faultKind = x.faultKind ∧ y.faultCount = x.faultCount := by
  rw [h.faulted hx]
  exact ⟨hx, rfl, rfl, rfl⟩

theorem RailReacts.trans {x y z : RailRuntime} (h : RailReacts x y) (h' : RailReacts y z) : RailReacts x z where
  claims := h'.claims.trans h.claims
  suspended := h'.suspended.trans h.suspended
  pg := h'.pg.trans h.pg
  faulted hx := by
    rw [h'.faulted (h.fault_stays hx).1, h.faulted hx]
  fault := by
    rcases h.fault with ⟨hl, hk, hc⟩ | ⟨hs, hl, hk, hc⟩
    · rcases h'.fault with ⟨hl', hk', hc'⟩ | ⟨hs', hl', hk', hc'⟩
      · exact .inl ⟨hl'.trans hl, hk'.trans hk, hc'.trans hc⟩
      · exact .inr ⟨hs', hl', hk', hc ▸ hc'⟩
    · obtain ⟨hs', hl', hk', hc'⟩ := h'.fault_stays hs
      exact .inr ⟨hs', hl'.trans hl, hk' ▸ hk, hc'.trans hc⟩
  cause := by
    rcases h'.cause with hc' | hd'
    · rcases h.cause with hc | ⟨hs, hf⟩
      · exact .inl (hc'.trans hc)
      · exact .inr (h'.drains hs hf)
    · exact .inr hd'
  drains hs hf := by
    obtain ⟨hs', hf'⟩ := h.drains hs hf
    exact h'.drains hs' hf'

/-- The hold set of a rail is written whatever its state. -/
theorem RailReacts.withHoldSet {x y : RailRuntime} (h : RailReacts x y) (hs : Vector Bool 16) :
    RailReacts x { y with holdSet := hs } :=
  { h with faulted := fun hx => congrArg (fun z : RailRuntime => { z with holdSet := hs }) (h.faulted hx) }

/-- The lines follow the state of a rail that was not in FAULT. -/
theorem RailReacts.withLines {x y : RailRuntime} (h : RailReacts x y) (hx : x.state ≠ .fault) (r : Rail) :
    RailReacts x (driveLines r y) :=
  { h with faulted := fun hf => absurd hf hx }

/-- A new target is taken whatever the rail's state (R53). -/
theorem railReacts_target (x : RailRuntime) (n : Nat) : RailReacts x { x with target := n } :=
  ⟨rfl, rfl, rfl, fun _ => rfl, .inl ⟨rfl, rfl, rfl⟩, .inl rfl, fun h h' => ⟨h, h'⟩⟩

/-- Budget is taken and given back outside FAULT. -/
theorem railReacts_held {x : RailRuntime} (hx : x.state ≠ .fault) (n : Nat) : RailReacts x { x with held := n } :=
  ⟨rfl, rfl, rfl, fun h => absurd h hx, .inl ⟨rfl, rfl, rfl⟩, .inl rfl, fun h h' => ⟨h, h'⟩⟩

/-- A move out of another state than FAULT, and out of DRAINING only where the drain is finished, that leaves alone the claims,
the suspended flag, the filtered PG, the fault fields and the drain cause. -/
theorem railReacts_move {x y : RailRuntime} (hx : x.state ≠ .fault) (hd : x.state = .draining → x.drainFinished = true)
    (h : y =
      { x with
        state := y.state
        level := y.level
        timer := y.timer
        slewOrigin := y.slewOrigin
        drainFinished := y.drainFinished }) : RailReacts x y := by
  rw [h]
  refine ⟨rfl, rfl, rfl, fun hf => absurd hf hx, .inl ⟨rfl, rfl, rfl⟩, .inl rfl, fun hs hf => ?_⟩
  rw [hd hs] at hf
  cases hf

/-! ### All rails at once -/

/-- Every rail's record undergoes no more than `RailReacts` allows. -/
def RailsReact (s t : State) : Prop := ∀ r : Rail, RailReacts (s.rail r) (t.rail r)

theorem RailsReact.refl (s : State) : RailsReact s s := fun _ => .refl _

theorem RailsReact.trans {s t u : State} (h : RailsReact s t) (h' : RailsReact t u) : RailsReact s u :=
  fun r => (h r).trans (h' r)

/-- Steps that leave the runtime records alone. -/
theorem RailsReact.of_rails_eq {s t : State} (h : t.rails = s.rails) : RailsReact s t := fun r => by
  unfold State.rail
  rw [h]
  exact .refl _

theorem RailsReact.foldl {α : Type} {f : State → α → State} (h : ∀ s a, RailsReact s (f s a)) (xs : List α) (s : State) :
    RailsReact s (xs.foldl f s) := by
  induction xs generalizing s with
  | nil => exact .refl s
  | cons a xs ih => exact (h s a).trans (ih _)

theorem RailsReact.foldl_event {α : Type} {f : Event → α → Event} (h : ∀ e a, RailsReact e.st (f e a).st) (xs : List α)
    (e : Event) : RailsReact e.st (xs.foldl f e).st := by
  induction xs generalizing e with
  | nil => exact .refl _
  | cons a xs ih => exact (h e a).trans (ih _)

theorem railsReact_modRail {s : State} {r : Rail} {f : RailRuntime → RailRuntime}
    (h : RailReacts (s.rail r) (f (s.rail r))) : RailsReact s (s.modRail r f) := fun q => by
  rw [State.rail_modRail]
  split
  · next hq => rw [hq]; exact h
  · exact .refl _

theorem railsReact_moveRail {s : State} {r : Rail} {f : RailRuntime → RailRuntime} (hr : (s.rail r).state ≠ .fault)
    (h : RailReacts (s.rail r) (f (s.rail r))) : RailsReact s (s.moveRail r f) := fun q => by
  have hq : RailReacts (s.rail q) (if q = r then driveLines r (f (s.rail r)) else s.rail q) := by
    split
    · next hq => rw [hq]; exact h.withLines hr r
    · exact .refl _
  rw [State.rail_moveRail]
  dsimp only
  split
  · exact hq.withHoldSet _
  · exact hq

theorem railsReact_giveBack {s : State} {r : Rail} (hr : (s.rail r).state ≠ .fault) (n : Nat) :
    RailsReact s (s.giveBack r n) :=
  railsReact_modRail (f := fun x => { x with held := min x.held n }) (railReacts_held hr _)

theorem railsReact_takeBudget {s : State} {r : Rail} (hr : (s.rail r).state ≠ .fault) (n : Nat) :
    RailsReact s (s.takeBudget r n) :=
  railsReact_modRail (f := fun x => { x with held := x.held + n }) (railReacts_held hr _)

@[simp] theorem State.state_giveBack (s : State) (r q : Rail) (n : Nat) :
    ((s.giveBack r n).rail q).state = (s.rail q).state := by
  rw [State.rail_giveBack]
  split
  · next h => rw [h]
  · rfl

@[simp] theorem State.drainFinished_giveBack (s : State) (r q : Rail) (n : Nat) :
    ((s.giveBack r n).rail q).drainFinished = (s.rail q).drainFinished := by
  rw [State.rail_giveBack]
  split
  · next h => rw [h]
  · rfl

@[simp] theorem State.state_takeBudget (s : State) (r q : Rail) (n : Nat) :
    ((s.takeBudget r n).rail q).state = (s.rail q).state := by
  rw [State.rail_takeBudget]
  split
  · next h => rw [h]
  · rfl

/-! ### A rail's moves between its states -/

/-- The states of a rail that neither drains nor stands in FAULT: any move out of them is open to an event. -/
def RailState.free (x : RailState) : Prop := x ≠ .fault ∧ x ≠ .draining

theorem RailState.free_of_running {x : RailState} (h : x.running = true) : x.free := by
  cases x <;> simp_all [RailState.running, RailState.free]

section
variable {s : State} {r : Rail}

/-- A move of `railReacts_move` out of a free state. -/
theorem railsReact_moveRail_of_free {f : RailRuntime → RailRuntime} (h : (s.rail r).state.free)
    (hf : f (s.rail r) =
      { s.rail r with
        state := (f (s.rail r)).state
        level := (f (s.rail r)).level
        timer := (f (s.rail r)).timer
        slewOrigin := (f (s.rail r)).slewOrigin
        drainFinished := (f (s.rail r)).drainFinished }) : RailsReact s (s.moveRail r f) :=
  railsReact_moveRail h.1 (railReacts_move h.1 (fun hd => absurd hd h.2) hf)

theorem railsReact_enterWaiting (h : (s.rail r).state.free) : RailsReact s (s.enterWaiting r) :=
  railsReact_moveRail_of_free h rfl

theorem railsReact_leaveWaiting (h : (s.rail r).state.free) : RailsReact s (s.leaveWaiting r) :=
  railsReact_moveRail_of_free (s := s.withdraw r) h rfl

theorem railsReact_enterRamping (h : (s.rail r).state.free) : RailsReact s (s.enterRamping r) :=
  railsReact_moveRail_of_free h rfl

theorem railsReact_enterSlewing (h : (s.rail r).state.free) : RailsReact s (s.enterSlewing r) :=
  railsReact_moveRail_of_free (s := s.withdraw r) h rfl

theorem railsReact_callBackSlew (level : Nat) (h : (s.rail r).state.free) : RailsReact s (s.callBackSlew r level) :=
  railsReact_moveRail_of_free h rfl

/-- A drain may begin, or begin again, outside FAULT. -/
theorem railsReact_enterDraining (c : DrainCause) (h : (s.rail r).state ≠ .fault) : RailsReact s (s.enterDraining r c) := by
  unfold State.enterDraining
  dsimp only
  have hmove : ∀ (t : State) (timer : Timer), (t.rail r).state ≠ .fault → RailsReact t (t.moveRail r fun x =>
      { x with state := .draining, timer := timer, drainCause := c, drainFinished := false, slewOrigin := none }) :=
    fun t _ ht => railsReact_moveRail ht
      ⟨rfl, rfl, rfl, fun hf => absurd hf ht, .inl ⟨rfl, rfl, rfl⟩, .inr ⟨rfl, rfl⟩, fun _ _ => ⟨rfl, rfl⟩⟩
  split
  · have hback : RailsReact s ((s.withdraw r).giveBack r ((s.record r).costOf (s.rail r).level)) :=
      railsReact_giveBack (s := s.withdraw r) h _
    exact hback.trans (hmove _ _ (by rwa [State.state_giveBack]))
  · exact hmove (s.withdraw r) _ h

/-- A drain ends where it is finished. -/
theorem railsReact_finishDrain (h : (s.rail r).state = .draining) (hf : (s.rail r).drainFinished = true) :
    RailsReact s (s.finishDrain r) := by
  have hs : (s.rail r).state ≠ .fault := by simp [h]
  have hback : RailsReact s (s.giveBack r 0) := railsReact_giveBack hs 0
  have hs' : ((s.giveBack r 0).rail r).state ≠ .fault := by rwa [State.state_giveBack]
  exact hback.trans (railsReact_moveRail hs' (railReacts_move hs' (fun _ => by rwa [State.drainFinished_giveBack]) rfl))

theorem railsReact_enterFault (k : FaultKind) (h : (s.rail r).state.free) : RailsReact s (s.enterFault r k) := by
  have hback : RailsReact s ((s.withdraw r).giveBack r 0) := railsReact_giveBack (s := s.withdraw r) h.1 0
  have hs : (((s.withdraw r).giveBack r 0).rail r).state.free := by
    rw [State.state_giveBack]
    exact h
  exact hback.trans (railsReact_moveRail hs.1
    ⟨rfl, rfl, rfl, fun hf => absurd hf hs.1, .inr ⟨rfl, rfl, nofun, rfl⟩, .inl rfl, fun hd => absurd hd hs.2⟩)

end

end Sys2Proof.Machine
end

/-! ### Every event at the rails is a reaction (R18, R54, R83, R97) -/

section
namespace Sys2Proof.Machine

/-! ### Targets and drains -/

theorem railsReact_examineTarget {r : Rail} {e : Event} (h : (e.st.rail r).state.free) :
    RailsReact e.st (examineTarget r e).st := by
  unfold examineTarget
  dsimp only
  split
  · exact railsReact_enterDraining .normal h.1
  · split
    · exact railsReact_enterSlewing h
    · exact .refl _

theorem railsReact_actOnTarget (r : Rail) (e : Event) : RailsReact e.st (actOnTarget r e).st := by
  have hfree : ∀ x : RailState, (e.st.rail r).state = x → x.free → (e.st.rail r).state.free := fun _ hx h => hx ▸ h
  unfold actOnTarget
  dsimp only
  split
  · next hx =>
    split
    · exact .refl _
    · exact railsReact_enterWaiting (hfree _ hx ⟨nofun, nofun⟩)
  · next hx =>
    split
    · exact railsReact_leaveWaiting (hfree _ hx ⟨nofun, nofun⟩)
    · exact .refl _
  · next hx =>
    split
    · exact railsReact_enterDraining .normal (hfree _ hx ⟨nofun, nofun⟩).1
    · exact .refl _
  · next hx => exact railsReact_examineTarget (hfree _ hx ⟨nofun, nofun⟩)
  · exact .refl _
  · exact .refl _
  · exact .refl _

theorem railsReact_takeTarget (r : Rail) (e : Event) : RailsReact e.st (takeTarget r e).st := by
  unfold takeTarget
  dsimp only
  split
  · exact .refl _
  · have hact : ∀ e1 : Event, e1.st = (e.st.modRail r fun y => { y with target := e.st.targetFor r }) →
        RailsReact e.st (actOnTarget r e1).st := fun e1 h1 =>
      .trans (h1 ▸ railsReact_modRail (railReacts_target _ _)) (railsReact_actOnTarget r e1)
    split <;> exact hact _ rfl

theorem railsReact_takeDeferredOff (r : Rail) (e : Event) : RailsReact e.st (takeDeferredOff r e).st := by
  unfold takeDeferredOff
  dsimp only
  split
  · next h =>
    obtain ⟨hs, hf, -⟩ := h
    exact railsReact_finishDrain hs hf
  · exact .refl _

theorem railsReact_settle (e : Event) : RailsReact e.st (settle e).st :=
  .foldl_event (fun e r => (railsReact_takeTarget r e).trans (railsReact_takeDeferredOff r _)) _ e

theorem railsReact_railEvent (e : Event) : RailsReact e.st (railEvent e).st := railsReact_settle e

theorem railsReact_settleAfter (e : Event) : RailsReact e.st (settleAfter e).st := railsReact_settle { e with log := [] }

/-! ### Entry into FAULT and the cascade -/

theorem railsReact_forceOff (k : FaultKind) (e : Event) (r : Rail) : RailsReact e.st (forceOff k e r).st := by
  unfold forceOff
  split
  · next h => exact railsReact_enterDraining .parentFault (RailState.free_of_running h).1
  · exact .refl _

theorem railsReact_cascade (k : FaultKind) (n : Nat) (rs : List Rail) (e : Event) :
    RailsReact e.st (cascade k n rs e).st := by
  induction n generalizing rs e with
  | zero => exact .refl _
  | succ n ih =>
    unfold cascade
    split
    · exact .refl _
    · exact (RailsReact.foldl_event (railsReact_forceOff k) _ e).trans (ih _ _)

theorem railsReact_faultRail {r : Rail} (k : FaultKind) {e : Event} (h : (e.st.rail r).state.free) :
    RailsReact e.st (faultRail r k e).st :=
  ((railsReact_enterFault k h).trans (railsReact_cascade k _ _
    ((e.mapState fun s => s.enterFault r k).announce (.enteredFault r k)))).trans (railsReact_settleAfter _)

/-! ### The grant rule -/

theorem State.state_callBackSlew (s : State) (r : Rail) (level : Nat) :
    ((s.callBackSlew r level).rail r).state = .on := by
  rw [State.callBackSlew, State.rail_moveRail]
  simp only [if_true]
  split <;> rfl

theorem railsReact_takeWholeFall (before s : State) (r : Rail) : RailsReact s (takeWholeFall before s r) := by
  unfold takeWholeFall
  dsimp only
  split
  · next h =>
    obtain ⟨-, hs, -⟩ := h
    refine (railsReact_callBackSlew _ (hs ▸ ⟨nofun, nofun⟩)).trans (railsReact_enterDraining .normal ?_)
    rw [State.state_callBackSlew]
    nofun
  · exact .refl _

theorem railsReact_takeWholeFalls (before : State) (e : Event) : RailsReact e.st (takeWholeFalls before e).st :=
  .foldl (railsReact_takeWholeFall before) allRails e.st

/-- A rail asks for budget in WAITING and in ON alone (R76). -/
theorem State.free_of_requestOf {s : State} {r : Rail} {q : GrantKind × Nat} (h : s.requestOf r = some q) :
    (s.rail r).state.free := by
  unfold State.requestOf at h
  dsimp only at h
  split at h
  · next hready =>
    obtain ⟨hw, -, -⟩ := (s.ready_iff r).mp hready
    exact hw ▸ ⟨nofun, nofun⟩
  · split at h
    · next hon => exact hon.1 ▸ ⟨nofun, nofun⟩
    · cases h

theorem railsReact_handGrant (before : State) {r : Rail} (k : GrantKind) (n : Nat) {e : Event}
    (h : (e.st.rail r).state.free) : RailsReact e.st (handGrant before r k n e).st := by
  have h' : ((e.st.takeBudget r n).rail r).state.free := by
    rw [State.state_takeBudget]
    exact h
  refine (railsReact_takeBudget h.1 n).trans ?_
  unfold handGrant
  split
  · dsimp only
    split
    · exact (railsReact_faultRail (e := e.mapState fun s => s.takeBudget r n) .backfeed h').trans
        (railsReact_takeWholeFalls before _)
    · exact railsReact_enterRamping h'
  · exact railsReact_enterSlewing h'

theorem State.requestOf_of_newRequest {s : State} {r : Rail} {q : GrantKind × Nat} (h : s.newRequest r = some q) :
    s.requestOf r = some q := by
  unfold State.newRequest at h
  split at h
  · cases h
  · exact h

theorem State.requestOf_of_zeroRequest {s : State} {r : Rail} {k : GrantKind} (h : s.zeroRequest = some (r, k)) :
    s.requestOf r = some (k, 0) := by
  unfold State.zeroRequest at h
  obtain ⟨a, -, ha⟩ := List.exists_of_findSome?_eq_some h
  split at ha
  · next hnew =>
    cases ha
    exact State.requestOf_of_newRequest hnew
  · cases ha

/-- Every entry of the queue is of a rail in WAITING or in ON. -/
def QueueFree (s : State) : Prop := ∀ q ∈ s.budgetQueue, (s.rail q.rail).state.free

theorem queueFree_reconcile (s : State) : QueueFree s.reconcile := fun q hq => by
  rw [reconcile_rail]
  exact State.free_of_requestOf (s.mem_reconcile q hq)

theorem QueueFree.placeRequest {s : State} (h : QueueFree s) (r : Rail) : QueueFree (s.placeRequest r) := by
  unfold State.placeRequest
  split
  · next hnew =>
    intro q hq
    rcases (mem_placeEntry _ q _).mp hq with rfl | hq
    · exact State.free_of_requestOf (s := s) (State.requestOf_of_newRequest hnew)
    · exact h q hq
  · exact h

theorem QueueFree.placeRequests {s : State} (h : QueueFree s) : QueueFree s.placeRequests := by
  have hfold : ∀ (rs : List Rail) (t : State), QueueFree t → QueueFree (rs.foldl State.placeRequest t) := by
    intro rs
    induction rs with
    | nil => exact fun _ ht => ht
    | cons a rs ih => exact fun t ht => ih _ (ht.placeRequest a)
  exact hfold allRails s h

theorem railsReact_grantRound (before : State) (e : Event) : RailsReact e.st (grantRound before e).1.st := by
  unfold grantRound
  dsimp only
  split
  · next r k hzero =>
    exact railsReact_handGrant before k 0 (e := { e with st := e.st.reconcile })
      (State.free_of_requestOf (State.requestOf_of_zeroRequest hzero))
  · have hplaced : RailsReact e.st e.st.reconcile.placeRequests := .of_rails_eq e.st.reconcile.placeRequests_rails.1
    have hqueue : QueueFree e.st.reconcile.placeRequests := (queueFree_reconcile e.st).placeRequests
    generalize e.st.reconcile.placeRequests = s2 at hplaced hqueue
    split
    · exact hplaced
    · next q rest hq =>
      split
      · have hhead : (s2.rail q.rail).state.free := hqueue q (hq ▸ List.mem_cons_self)
        exact hplaced.trans (railsReact_handGrant before q.kind q.amount
          (e := { e with st := { s2 with budgetQueue := rest } }) hhead)
      · exact hplaced

theorem railsReact_arbitrate (before : State) (n : Nat) (e : Event) : RailsReact e.st (arbitrate before n e).st := by
  unfold arbitrate
  induction n generalizing e with
  | zero => exact .refl _
  | succ n ih =>
    have hround := railsReact_grantRound before e
    unfold repeatRounds
    split
    · next heq =>
      rw [heq] at hround
      exact hround.trans (ih _)
    · next heq =>
      rw [heq] at hround
      exact hround

/-! ### The whole event -/

/-- What the rails and the arbiter write, and the sessions then hear, is a reaction. -/
theorem reaction_of_heard {s m t : State} (ho : OnlyRails s m) (hr : RailsReact s m) (hh : Heard m t) : Reaction s t := by
  have hrail : ∀ r : Rail, RailReacts (s.rail r) (t.rail r) := by
    intro r
    rw [hh.rest]
    exact hr r
  exact {
    rest := by rw [hh.rest, ho]
    claims := fun r => (hrail r).claims
    suspended := fun r => (hrail r).suspended
    pg := fun r => (hrail r).pg
    faulted := fun r => (hrail r).faulted
    fault := fun r => (hrail r).fault
    cause := fun r => (hrail r).cause.imp_right fun h => h.1
    session := fun l => ho.session l ▸ hh.session l
    unattached := fun l hl => (hh.unattached l (by rwa [ho.session l])).trans (ho.session l)
    grows := fun l => ho.session l ▸ hh.grows l
    leaves := fun l r => by
      have h := hh.leaves l r
      rwa [show m.outstanding l r = s.outstanding l r by unfold State.outstanding; rw [ho.session l]] at h }

theorem reaction_conclude (reserve : Option Link) (lead : List Announcement) (before : State) (s : State) (e : Event)
    (ho : OnlyRails s e.st) (hr : RailsReact s e.st) : Reaction s (conclude reserve lead before e) :=
  reaction_of_heard (ho.trans (onlyRails_arbitrate before _ { e with log := [] }))
    (hr.trans (railsReact_arbitrate before _ { e with log := [] })) (heard_deliver ..)

/-- An event at the rails is a reaction to the state it finds. -/
theorem reaction_railTurn (reserve : Option Link) (lead : List Announcement) (e : Event) :
    Reaction e.st (railTurn reserve lead e) :=
  reaction_conclude reserve lead e.st e.st (railEvent e) (onlyRails_railEvent e) (railsReact_railEvent e)

end Sys2Proof.Machine
end

/-! ### The end of a session (R135, R141) -/

section
namespace Sys2Proof.Machine

/-- A teardown ends as a reaction to what is left without the session (R70). -/
theorem reaction_teardown (l : Link) (st : SessionState) (s : State) : Reaction (s.without l st) (teardown l st s) := by
  rw [teardown_eq]
  exact reaction_railTurn none [] ⟨s.without l st, []⟩

theorem State.session_without (s : State) (l : Link) (st : SessionState) :
    (s.without l st).session l = (s.session l).gone st :=
  (get_set s.sessions l l _).trans (if_pos rfl)

theorem State.claim_without (s : State) (l : Link) (st : SessionState) (r : Rail) : (s.without l st).claim l r = 0 := by
  have hr : (s.without l st).rail r = { s.rail r with claims := (s.rail r).claims.set l.val 0 l.isLt } := get_map ..
  rw [State.claim, hr, get_set, if_pos rfl]

/-- A session torn down hears nothing more at the event. -/
theorem session_teardown (l : Link) {st : SessionState} (s : State) (hst : st ≠ .attached) :
    (teardown l st s).session l = (s.session l).gone st := by
  have hgone := s.session_without l st
  rw [(reaction_teardown l st s).unattached l (by rw [hgone]; exact hst), hgone]

/-- A session torn down holds no claim. -/
theorem claim_teardown (l : Link) (st : SessionState) (s : State) (r : Rail) : (teardown l st s).claim l r = 0 := by
  rw [State.claim, (reaction_teardown l st s).claims r]
  exact s.claim_without l st r

theorem links_teardown (l : Link) (st : SessionState) (s : State) : (teardown l st s).links = s.links := by
  rw [(reaction_teardown l st s).rest]
  rfl

/-- Apart from the links, a response leaves the state as it is. -/
theorem State.respond_withLinks {s t : State} (l : Link) (tag : Byte) (st : Status) (data : List Byte)
    (h : t.links = s.links) : { t.respond l tag st data with links := s.links } = t := by
  rw [State.respond_eq, ← h]

@[simp] theorem State.links_renewLease (s : State) (l : Link) : (s.renewLease l).links = s.links := by
  unfold State.renewLease
  split <;> rfl

/-- The lease renewed before a teardown is given up with the rest of the session. -/
theorem State.without_renewLease (s : State) (l : Link) (st : SessionState) :
    (s.renewLease l).without l st = s.without l st := by
  unfold State.renewLease
  split
  · have hs : ((s.modSession l fun x => { x with leaseTimer := .running (x.leaseLength.toNat * Config.leaseUnit) }).session
        l).gone st = (s.session l).gone st := by
      rw [State.session_modSession, if_pos rfl]
      rfl
    unfold State.without
    rw [hs]
    simp only [State.modSession, Vector.set_set, State.session]
  · rfl

/-- A request that fails the session check is answered with the refusal and changes nothing else (R130). -/
theorem State.answered_sessionRefused {s : State} {k : Kind} {l : Link} {f : Frame} {st : Status} (body : State → Answer)
    (hr : (s.link l).receiver = .request) (hf : frameRefusal k f = none)
    (hs : sessionRefusal k (s.session l).state = some st) :
    Answered s (s.serve k l f body) l st f []
      ∧ s.serve k l f body = { s with links := (s.serve k l f body).links } := by
  rw [State.serve_sessionRefused hr hf hs]
  exact ⟨answered_respond rfl, rfl⟩

theorem Kind.allowsLength_detach (n : Nat) : Kind.detach.allowsLength n = true ↔ n = 0 := beq_iff_eq

/-- DETACH is allowed in every lifecycle, and in every session state but DETACHED. -/
theorem passes_detach {s : State} {l : Link} {f : Frame} (hr : (s.link l).receiver = .request)
    (hf : frameRefusal .detach f = none) (hs : (s.session l).state ≠ .detached) : Passes s .detach l f where
  receiver := hr
  frame := hf
  session := by
    cases h : (s.session l).state with
    | detached => exact absurd h hs
    | attached => rfl
    | expired => rfl
  lifecycle := by cases s.lifecycle <;> rfl

theorem exec_detach (l : Link) (f : Frame) (s : State) :
    exec (.detach l f) s = .next (s.serve .detach l f (detachAnswer l)) := rfl

/-- DETACH of an ATTACHED session is its teardown, answered OK. -/
theorem serve_detach_attached {s : State} {l : Link} {f : Frame} (hr : (s.link l).receiver = .request)
    (hf : frameRefusal .detach f = none) (hs : (s.session l).state = .attached) :
    s.serve .detach l f (detachAnswer l) = (teardown l .detached (s.renewLease l)).respond l f.tag .ok [] := by
  have hs' : ((s.renewLease l).session l).state = .attached := by
    rw [State.renewLease, if_pos hs, State.session_modSession, if_pos rfl]
    exact hs
  rw [State.serve_taken _ (passes_detach hr hf (by rw [hs]; nofun)), detachAnswer, if_pos hs']

/-- DETACH of an EXPIRED session writes its state alone, answered OK. -/
theorem serve_detach_expired {s : State} {l : Link} {f : Frame} (hr : (s.link l).receiver = .request)
    (hf : frameRefusal .detach f = none) (hs : (s.session l).state = .expired) :
    s.serve .detach l f (detachAnswer l) =
      (s.modSession l fun x => { x with state := .detached }).respond l f.tag .ok [] := by
  have hna : (s.session l).state ≠ .attached := by rw [hs]; nofun
  rw [State.serve_taken _ (passes_detach hr hf (by rw [hs]; nofun)), State.renewLease_other hna, detachAnswer, if_neg hna]

/-- Settles O22, by the session state: the teardown is the one of `reaction_teardown`, the end of an EXPIRED session writes one
field, and a DETACHED session fails the session check. -/
theorem detachEndsTheSession : Obligations.DetachEndsTheSession := by
  refine ⟨Kind.allowsLength_detach, fun l f s hr hf => ⟨fun hs => ?_, fun hs => ?_, fun hs => ?_⟩⟩
  · have hlinks : (teardown l .detached (s.renewLease l)).links = s.links := by
      rw [links_teardown, State.links_renewLease]
    have hsession : ((s.renewLease l).session l).gone .detached = (s.session l).gone .detached := by
      rw [← State.session_without, State.without_renewLease, State.session_without]
    refine ⟨_, (exec_detach l f s).trans (congrArg _ (serve_detach_attached hr hf hs)), answered_respond hlinks, ?_, ?_, ?_⟩
    · rw [State.respond_session, session_teardown l (st := .detached) _ nofun, hsession]
    · intro r
      rw [State.respond_claim, claim_teardown]
    · rw [State.respond_withLinks l _ _ _ hlinks, ← State.without_renewLease]
      exact reaction_teardown l .detached (s.renewLease l)
  · exact ⟨_, (exec_detach l f s).trans (congrArg _ (serve_detach_expired hr hf hs)), answered_respond rfl, rfl⟩
  · exact ⟨_, exec_detach l f s, State.answered_sessionRefused _ hr hf (by rw [hs]; rfl)⟩

end Sys2Proof.Machine
end

/-! ### What leaves the leases alone (R131, R136) -/

section
namespace Sys2Proof.Machine

/-- From `s` to `t` no lease timer is written. -/
structure LeasesKept (s t : State) : Prop where
  timer : ∀ m : Link, (t.session m).leaseTimer = (s.session m).leaseTimer

theorem LeasesKept.refl (s : State) : LeasesKept s s := ⟨fun _ => rfl⟩

theorem LeasesKept.trans {s t u : State} (h : LeasesKept s t) (h' : LeasesKept t u) : LeasesKept s u :=
  ⟨fun m => (h'.timer m).trans (h.timer m)⟩

theorem LeasesKept.of_sessions_eq {s t : State} (h : t.sessions = s.sessions) : LeasesKept s t where
  timer m := by rw [State.session, h, State.session]

/-- Announcements taken by the sessions write no lease. -/
theorem Heard.leasesKept {s t : State} (h : Heard s t) : LeasesKept s t := ⟨fun m => by rw [h.session m]⟩

/-- The rails and the arbiter write no lease. -/
theorem OnlyRails.leasesKept {s t : State} (h : OnlyRails s t) : LeasesKept s t := .of_sessions_eq h.sessions

theorem leasesKept_railTurn (reserve : Option Link) (lead : List Announcement) (e : Event) :
    LeasesKept e.st (railTurn reserve lead e) := by
  obtain ⟨m, hm, ht⟩ := railTurn_cases reserve lead e
  exact hm.leasesKept.trans ht.leasesKept

theorem leasesKept_modSession (s : State) (l : Link) {f : Session → Session}
    (h : (f (s.session l)).leaseTimer = (s.session l).leaseTimer) : LeasesKept s (s.modSession l f) where
  timer m := by
    rw [State.session_modSession]
    split
    · next hm => rw [hm]; exact h
    · rfl

theorem leasesKept_setOutstanding (s : State) (l : Link) (r : Rail) (o : Option Outstanding) :
    LeasesKept s (s.setOutstanding l r o) := leasesKept_modSession s l rfl

theorem leasesKept_resolve (s : State) (l : Link) (r : Rail) (code : EventCode) (level : Nat) (d : Detail) :
    LeasesKept s (s.resolve l r code level d) := by
  rcases s.resolve_cases l r code level d with ⟨-, he⟩ | ⟨o, -, he⟩
  · rw [he]
    exact .refl s
  · rw [he]
    exact (leasesKept_setOutstanding s l r none).trans (leasesKept_modSession _ l rfl)

theorem leasesKept_rewriteClaim (reserve : Option Link) (l : Link) (r : Rail) (v : Nat) (s : State) :
    LeasesKept s (rewriteClaim reserve l r v s) :=
  have hclaim : LeasesKept s (s.setClaim l r v) := .of_sessions_eq rfl
  hclaim.trans (leasesKept_railTurn reserve [] ⟨s.setClaim l r v, []⟩)

theorem leasesKept_closeOutstanding (l : Link) (r : Rail) (code : EventCode) (s : State) :
    LeasesKept s (closeOutstanding l r code s) := leasesKept_resolve s l r code (s.rail r).level .absent

theorem leasesKept_setUp (l : Link) (r : Rail) (o : Outstanding) (outcome : Option (EventCode × Nat × Detail)) (s : State) :
    LeasesKept s (setUp l r o outcome s) := by
  unfold setUp
  dsimp only
  split
  · exact (leasesKept_setOutstanding ..).trans (leasesKept_resolve ..)
  · exact leasesKept_setOutstanding ..

/-! ### The answers of the requests other than ATTACH and DETACH -/

theorem leasesKept_claimTaken (l : Link) (r : Rail) (level : Nat) (tag : Byte) (s : State) :
    LeasesKept s (claimTaken l r level tag s) := by
  unfold claimTaken
  dsimp only
  refine .trans ?_ (leasesKept_setUp ..)
  exact (leasesKept_closeOutstanding l r .superseded s).trans (leasesKept_rewriteClaim ..)

theorem leasesKept_claimAnswer (l : Link) (f : Frame) (s : State) : LeasesKept s (claimAnswer l f s).st := by
  unfold claimAnswer
  split
  · exact .refl s
  · dsimp only
    split
    · exact .refl s
    · split
      · exact .refl s
      · dsimp only
        exact leasesKept_claimTaken ..

theorem leasesKept_releaseNow (l : Link) (r : Rail) (s : State) : LeasesKept s (releaseNow l r s) := by
  unfold releaseNow
  dsimp only
  split
  · exact (leasesKept_closeOutstanding l r .cancelled s).trans (leasesKept_rewriteClaim ..)
  · exact leasesKept_rewriteClaim ..

theorem leasesKept_releaseWaiting (l : Link) (r : Rail) (tag : Byte) (s : State) :
    LeasesKept s (releaseWaiting l r tag s) := by
  unfold releaseWaiting
  dsimp only
  refine .trans ?_ (leasesKept_setUp ..)
  exact (leasesKept_closeOutstanding l r .superseded s).trans (leasesKept_rewriteClaim ..)

theorem leasesKept_releaseAnswer (l : Link) (f : Frame) (s : State) : LeasesKept s (releaseAnswer l f s).st := by
  unfold releaseAnswer
  split
  · exact .refl s
  · split
    · dsimp only
      exact leasesKept_releaseNow ..
    · split
      · split
        · exact .refl s
        · dsimp only
          exact leasesKept_releaseWaiting ..
      · exact .refl s

theorem leasesKept_clearFaultTaken (l : Link) (r : Rail) (s : State) : LeasesKept s (clearFaultTaken l r s) := by
  unfold clearFaultTaken
  dsimp only
  refine .trans ?_ (leasesKept_railTurn ..)
  exact (onlyRails_moveRail s r _).leasesKept

theorem leasesKept_clearFaultAnswer (l : Link) (f : Frame) (s : State) : LeasesKept s (clearFaultAnswer l f s).st := by
  unfold clearFaultAnswer
  split
  · exact .refl s
  · dsimp only
    split
    · exact .refl s
    · split
      · exact .refl s
      · split
        · exact .refl s
        · dsimp only
          exact leasesKept_clearFaultTaken ..

theorem leasesKept_fetchAnswer (l : Link) (s : State) : LeasesKept s (fetchAnswer l s).st := by
  unfold fetchAnswer
  dsimp only
  split
  · exact leasesKept_modSession s l (f := fun y => { y with lost := 0 }) rfl
  · next rest _ =>
    exact leasesKept_modSession s l
      (f := fun y => { y with queue := rest, lost := 0, alertn := if rest.isEmpty then .high else y.alertn }) rfl

theorem leasesKept_queryRailAnswer (l : Link) (f : Frame) (s : State) : LeasesKept s (queryRailAnswer l f s).st := by
  unfold queryRailAnswer
  split <;> exact .refl s

theorem leasesKept_writeRailAnswer (f : Frame) (s : State) : LeasesKept s (writeRailAnswer f s).st := by
  unfold writeRailAnswer
  split
  · split <;> exact .of_sessions_eq rfl
  · exact .refl s

theorem leasesKept_readRailAnswer (f : Frame) (s : State) : LeasesKept s (readRailAnswer f s).st := by
  unfold readRailAnswer
  split <;> exact .refl s

theorem leasesKept_evaluateSupply (sense : Nat) (s : State) : LeasesKept s (evaluateSupply sense s) := by
  unfold evaluateSupply
  dsimp only
  split
  · refine .trans ?_ (onlyRails_setSuspended _ true).leasesKept
    exact .of_sessions_eq rfl
  · exact .of_sessions_eq rfl

theorem leasesKept_commitTaken (sense : Nat) (s : State) : LeasesKept s (commitTaken sense s) := by
  unfold commitTaken
  dsimp only
  generalize hblank : ({ s with lifecycle := .committed, allocated := 0, budgetQueue := [] } : State) = s0
  have hstart : LeasesKept s s0 := .of_sessions_eq (by rw [← hblank])
  have hsupply : LeasesKept s (evaluateSupply sense (s0.modRails fun _ => RailRuntime.activated)) :=
    (hstart.trans (onlyRails_modRails s0 _).leasesKept).trans (leasesKept_evaluateSupply sense _)
  split
  · exact hsupply
  · exact hsupply.trans (heard_deliver none _ _).leasesKept

theorem leasesKept_commitAnswer (sense : Nat) (s : State) : LeasesKept s (commitAnswer sense s).st := by
  unfold commitAnswer
  split
  · exact .refl s
  · dsimp only
    exact leasesKept_commitTaken ..

/-! ### The lease after a request (R131, R134) -/

/-- Every request but ATTACH and DETACH goes through the common path, and its own rules leave the leases alone. COMMIT alone
writes something ahead of that path, the stored SENSE. -/
theorem exec_request_of_ne {c : Instr} {k : Kind} {l : Link} {f : Frame} (s : State)
    (hc : c.request? = some (k, l, f)) (ha : k ≠ .attach) (hd : k ≠ .detach) :
    ∃ (body : State → Answer) (sense : Nat), exec c s = .next (State.serve { s with sense := sense } k l f body)
      ∧ ∀ t : State, LeasesKept t (body t).st := by
  cases c with
  | attach => cases hc; exact absurd rfl ha
  | detach => cases hc; exact absurd rfl hd
  | renew => cases hc; exact ⟨_, s.sense, rfl, .refl⟩
  | claim => cases hc; exact ⟨_, s.sense, rfl, leasesKept_claimAnswer l f⟩
  | releaseWithoutWait => cases hc; exact ⟨_, s.sense, rfl, leasesKept_releaseAnswer l f⟩
  | releaseWithWait => cases hc; exact ⟨_, s.sense, rfl, leasesKept_releaseAnswer l f⟩
  | clearFault => cases hc; exact ⟨_, s.sense, rfl, leasesKept_clearFaultAnswer l f⟩
  | fetchEvent => cases hc; exact ⟨_, s.sense, rfl, leasesKept_fetchAnswer l⟩
  | queryRail => cases hc; exact ⟨_, s.sense, rfl, leasesKept_queryRailAnswer l f⟩
  | queryPart => cases hc; exact ⟨_, s.sense, rfl, .refl⟩
  | writeRail => cases hc; exact ⟨_, s.sense, rfl, leasesKept_writeRailAnswer f⟩
  | writePart => cases hc; exact ⟨_, s.sense, rfl, fun _ => .of_sessions_eq rfl⟩
  | readRail => cases hc; exact ⟨_, s.sense, rfl, leasesKept_readRailAnswer f⟩
  | readPart => cases hc; exact ⟨_, s.sense, rfl, .refl⟩
  | commit _ _ sense => cases hc; exact ⟨_, sense, rfl, leasesKept_commitAnswer sense⟩
  | _ => cases hc

theorem leaseTimer_renewLease {s : State} {l : Link} (h : (s.session l).state = .attached) :
    ((s.renewLease l).session l).leaseTimer = .running ((s.session l).leaseLength.toNat * 100) := by
  rw [State.renewLease, if_pos h, State.session_modSession, if_pos rfl]
  rfl

/-- An ATTACHED session's request that passes the frame checks leaves the lease restarted, whatever the lifecycle check and its own
rules say, where these rules leave the leases alone. -/
theorem leaseTimer_serve {s : State} {k : Kind} {l : Link} {f : Frame} {body : State → Answer} (hk : k ≠ .attach)
    (hr : (s.link l).receiver = .request) (hf : frameRefusal k f = none) (hs : (s.session l).state = .attached)
    (hb : ∀ t : State, LeasesKept t (body t).st) :
    ((s.serve k l f body).session l).leaseTimer = .running ((s.session l).leaseLength.toNat * 100) := by
  have hpass : sessionRefusal k (s.session l).state = none := by
    rw [hs]
    exact if_neg hk
  cases hl : lifecycleRefusal k s.lifecycle with
  | some st => rw [State.serve_lifecycleRefused hr hf hpass hl, State.respond_session, leaseTimer_renewLease hs]
  | none =>
    rw [State.serve_taken body ⟨hr, hf, hpass, hl⟩, State.respond_session, (hb (s.renewLease l)).timer l, leaseTimer_renewLease hs]

theorem Kind.allowsLength_renew (n : Nat) : Kind.renew.allowsLength n = true ↔ n = 0 := beq_iff_eq

theorem exec_renew (l : Link) (f : Frame) (s : State) :
    exec (.renew l f) s = .next (s.serve .renew l f fun t => ⟨t, .ok, []⟩) := rfl

/-- RENEW of an ATTACHED session restarts its lease, answered OK. -/
theorem serve_renew_attached {s : State} {l : Link} {f : Frame} (hr : (s.link l).receiver = .request)
    (hf : frameRefusal .renew f = none) (hs : (s.session l).state = .attached) :
    (s.serve .renew l f fun t => ⟨t, .ok, []⟩) =
      State.respond { s with sessions := s.leaseRestarted l } l f.tag .ok [] := by
  have hpasses : Passes s .renew l f := ⟨hr, hf, by rw [hs]; rfl, by cases s.lifecycle <;> rfl⟩
  rw [State.serve_taken _ hpasses, State.renewLease_attached hs]

/-- Settles O21: RENEW is what the session check has done and no more, or is refused there; of the other requests
`leaseTimer_serve` says that the restarted lease is left alone. -/
theorem renewRestartsTheLease : Obligations.RenewRestartsTheLease := by
  refine ⟨Kind.allowsLength_renew, fun l f s hr hf => ⟨fun hs => ?_, fun hs => ?_, fun hs => ?_⟩, ?_⟩
  · exact ⟨_, (exec_renew l f s).trans (congrArg _ (serve_renew_attached hr hf hs)), answered_respond rfl, rfl⟩
  · exact ⟨_, exec_renew l f s, State.answered_sessionRefused _ hr hf (by rw [hs]; rfl)⟩
  · exact ⟨_, exec_renew l f s, State.answered_sessionRefused _ hr hf (by rw [hs]; rfl)⟩
  · intro c k l f s hc ha hd hr hf hs
    obtain ⟨body, sense, hexec, hkept⟩ := exec_request_of_ne s hc ha hd
    exact ⟨_, hexec, leaseTimer_serve (s := { s with sense := sense }) ha hr hf hs hkept⟩

end Sys2Proof.Machine
end

/-! ### The rails above a rail (R7, R170) -/

section
namespace Sys2Proof.Machine

theorem State.mem_parentsOf_iff (s : State) (p c : Rail) : p ∈ s.parentsOf c ↔ s.isParent p c = true :=
  List.contains_iff_mem.symm

/-- An absent rail has no parents (R3). -/
theorem State.defined_of_isParent {s : State} {p c : Rail} (h : s.isParent p c = true) : (s.record c).defined = true := by
  have hp : p ∈ s.parentsOf c := (s.mem_parentsOf_iff p c).mpr h
  cases hc : (s.record c).defined with
  | true => rfl
  | false =>
    rw [s.parentsOf_absent c hc] at hp
    cases hp

section
variable {s : State} {a b c : Rail}

theorem Above.of_isParent (h : s.isParent a b = true) : Above s a b := .parent a b (State.defined_of_isParent h) h

/-- What stands above a parent of a rail stands above the rail. -/
theorem Above.toChild (h : Above s a b) (hb : s.isParent b c = true) : Above s a c :=
  .step a b c h (State.defined_of_isParent hb) hb

theorem Above.trans (h : Above s a b) (h' : Above s b c) : Above s a c := by
  induction h' with
  | parent c _ hc => exact h.toChild hc
  | step d c _ _ hc ih => exact ih.toChild hc

/-- The last link of a chain of parents: the rail at its lower end is defined, and one of its parents ends the chain above it. -/
theorem Above.cases_lower (h : Above s a c) :
    (s.record c).defined = true ∧ ∃ b, s.isParent b c = true ∧ (a = b ∨ Above s a b) := by
  cases h with
  | parent _ hd hc => exact ⟨hd, a, hc, .inl rfl⟩
  | step b _ h hd hc => exact ⟨hd, b, hc, .inr h⟩

end

/-! ### The model's search for them -/

/-- The rails listed together with their parents: one round of `State.ancestorsFrom`. -/
def State.withParents (s : State) (listed : List Rail) : List Rail :=
  allRails.filter fun p => listed.contains p || listed.any fun c => s.isParent p c

theorem State.mem_withParents (s : State) (listed : List Rail) (p : Rail) :
    p ∈ s.withParents listed ↔ p ∈ listed ∨ ∃ c ∈ listed, s.isParent p c = true := by
  simp only [State.withParents, List.mem_filter, mem_allRails, true_and, Bool.or_eq_true, List.contains_iff_mem,
    List.any_eq_true]

theorem State.ancestorsFrom_succ (s : State) (n : Nat) (listed : List Rail) :
    s.ancestorsFrom (n + 1) listed = s.ancestorsFrom n (s.withParents listed) := rfl

/-- The list holds every parent of every rail in it. -/
def ParentClosed (s : State) (listed : List Rail) : Prop :=
  ∀ p c : Rail, c ∈ listed → s.isParent p c = true → p ∈ listed

theorem ParentClosed.mem_of_above {s : State} {listed : List Rail} (h : ParentClosed s listed) {a b : Rail}
    (hab : Above s a b) (hb : b ∈ listed) : a ∈ listed := by
  induction hab with
  | parent b _ hp => exact h a b hb hp
  | step b c _ _ hp ih => exact ih (h b c hb hp)

theorem ParentClosed.withParents {s : State} {listed : List Rail} (h : ParentClosed s listed) :
    ParentClosed s (s.withParents listed) := by
  have hsame (p : Rail) : p ∈ s.withParents listed ↔ p ∈ listed := by
    rw [s.mem_withParents]
    exact ⟨fun hp => hp.elim id fun ⟨c, hc, hpc⟩ => h p c hc hpc, .inl⟩
  intro p c hc hpc
  rw [hsame] at hc ⊢
  exact h p c hc hpc

theorem ParentClosed.ancestorsFrom {s : State} {listed : List Rail} (h : ParentClosed s listed) (n : Nat) :
    ParentClosed s (s.ancestorsFrom n listed) := by
  induction n generalizing listed with
  | zero => exact h
  | succ n ih => exact ih h.withParents

theorem State.subset_ancestorsFrom (s : State) (n : Nat) (listed : List Rail) : listed ⊆ s.ancestorsFrom n listed := by
  induction n generalizing listed with
  | zero => exact List.Subset.refl listed
  | succ n ih => exact fun p hp => ih _ ((s.mem_withParents listed p).mpr (.inl hp))

/-- The search lists nothing but what it starts from and rails that stand above that. -/
theorem State.of_mem_ancestorsFrom {s : State} {n : Nat} {listed : List Rail} {p : Rail}
    (h : p ∈ s.ancestorsFrom n listed) : p ∈ listed ∨ ∃ c ∈ listed, Above s p c := by
  induction n generalizing listed with
  | zero => exact .inl h
  | succ n ih =>
    obtain hp | ⟨c, hc, hpc⟩ := ih h
    · exact ((s.mem_withParents listed p).mp hp).imp_right fun ⟨c, hc, hpc⟩ => ⟨c, hc, .of_isParent hpc⟩
    · obtain hc | ⟨d, hd, hcd⟩ := (s.mem_withParents listed c).mp hc
      · exact .inr ⟨c, hc, hpc⟩
      · exact .inr ⟨d, hd, hpc.toChild hcd⟩

/-- How many rails the list holds, each counted once. -/
def railCount (listed : List Rail) : Nat := allRails.countP listed.contains

theorem railCount_le (listed : List Rail) : railCount listed ≤ Config.railRounds := List.countP_le_length

/-- A list whose count is the number of rails holds every rail. -/
theorem mem_of_railCount_eq {listed : List Rail} (h : railCount listed = Config.railRounds) (r : Rail) : r ∈ listed :=
  List.contains_iff_mem.mp (List.countP_eq_length.mp h r (mem_allRails r))

/-- A list that holds another and a rail beside it counts the rails of the other, and at least that one. -/
theorem railCount_lt {listed more : List Rail} {r : Rail} (hsub : listed ⊆ more) (hr : r ∈ more) (hnew : r ∉ listed) :
    railCount listed < railCount more := by
  have hsplit := List.countP_eq_countP_filter_add allRails more.contains listed.contains
  have hold : (allRails.filter listed.contains).countP more.contains = railCount listed := by
    rw [railCount, List.countP_eq_length_filter (p := listed.contains), List.countP_eq_length]
    exact fun q hq => List.contains_iff_mem.mpr (hsub (List.contains_iff_mem.mp (List.mem_filter.mp hq).2))
  have hfresh : (!listed.contains r) = true := by
    rw [Bool.not_eq_true', ← Bool.not_eq_true, List.contains_iff_mem]
    exact hnew
  have hpos : 0 < (allRails.filter fun q => !listed.contains q).countP more.contains :=
    List.countP_pos_iff.mpr ⟨r, List.mem_filter.mpr ⟨mem_allRails r, hfresh⟩, List.contains_iff_mem.mpr hr⟩
  unfold railCount at hold ⊢
  omega

/-- A round that leaves the list short of a parent has added a rail to it. -/
theorem State.railCount_lt_withParents {s : State} {listed : List Rail} (h : ¬ ParentClosed s listed) :
    railCount listed < railCount (s.withParents listed) := by
  simp only [ParentClosed, Classical.not_forall] at h
  obtain ⟨p, c, hc, hpc, hp⟩ := h
  exact railCount_lt (fun q hq => (s.mem_withParents listed q).mpr (.inl hq))
    ((s.mem_withParents listed p).mpr (.inr ⟨c, hc, hpc⟩)) hp

/-- `n` rounds either come to an end or list at least `n` more rails. -/
theorem State.ancestorsFrom_closed_or_grown (s : State) (n : Nat) (listed : List Rail) :
    ParentClosed s (s.ancestorsFrom n listed) ∨ railCount listed + n ≤ railCount (s.ancestorsFrom n listed) := by
  induction n generalizing listed with
  | zero => exact .inr (Nat.le_refl _)
  | succ n ih =>
    by_cases h : ParentClosed s listed
    · exact .inl (h.ancestorsFrom (n + 1))
    · have hgrow := State.railCount_lt_withParents h
      rw [s.ancestorsFrom_succ]
      exact (ih (s.withParents listed)).imp_right fun hn => by omega

/-- There are sixteen rails, so sixteen rounds bring the search to its end. -/
theorem State.parentClosed_ancestors (s : State) (r : Rail) : ParentClosed s (s.ancestors r) := by
  obtain h | h := s.ancestorsFrom_closed_or_grown Config.railRounds (s.parentsOf r)
  · exact h
  · have hall : railCount (s.ancestors r) = Config.railRounds :=
      Nat.le_antisymm (railCount_le _) (Nat.le_trans (Nat.le_add_left ..) h)
    exact fun p _ _ _ => mem_of_railCount_eq hall p

theorem State.mem_ancestors_iff (s : State) (a r : Rail) : a ∈ s.ancestors r ↔ Above s a r := by
  have hparents : s.parentsOf r ⊆ s.ancestors r := s.subset_ancestorsFrom Config.railRounds (s.parentsOf r)
  constructor
  · intro h
    obtain hp | ⟨b, hb, hab⟩ := State.of_mem_ancestorsFrom h
    · exact .of_isParent ((s.mem_parentsOf_iff a r).mp hp)
    · exact hab.toChild ((s.mem_parentsOf_iff b r).mp hb)
  · intro h
    obtain ⟨-, b, hb, hab⟩ := h.cases_lower
    have hmem : b ∈ s.ancestors r := hparents ((s.mem_parentsOf_iff b r).mpr hb)
    obtain rfl | hab := hab
    · exact hmem
    · exact (s.parentClosed_ancestors r).mem_of_above hab hmem

theorem State.onCycle_iff (s : State) (r : Rail) : s.onCycle r = true ↔ Above s r r := by
  rw [State.onCycle, Bool.and_eq_true, List.contains_iff_mem, s.mem_ancestors_iff]
  exact ⟨And.right, fun h => ⟨h.cases_lower.1, h⟩⟩

/-! ### The answer of COMMIT where the other checks pass -/

/-- The first rail found is the lowest, as the rails are looked at in ascending order. -/
theorem find?_allRails_eq_some_iff (p : Rail → Bool) (r : Rail) :
    allRails.find? p = some r ↔ p r = true ∧ ∀ x : Rail, p x = true → r ≤ x := by
  have hsorted : allRails.Pairwise (· < ·) := by decide
  have hlowest : ∀ y : Rail, allRails.find? p = some y → p y = true ∧ ∀ x : Rail, p x = true → y ≤ x := by
    intro y hy
    obtain ⟨hpy, before, rest, hsplit, hbefore⟩ := List.find?_eq_some_iff_append.mp hy
    refine ⟨hpy, fun x hpx => ?_⟩
    have hx : x ∈ before ++ y :: rest := hsplit ▸ mem_allRails x
    rw [hsplit, List.pairwise_append] at hsorted
    obtain ⟨-, hrest, -⟩ := hsorted
    obtain hx | hx := List.mem_append.mp hx
    · have hnot := hbefore x hx
      rw [hpx] at hnot
      cases hnot
    · obtain rfl | hx := List.mem_cons.mp hx
      · exact Nat.le_refl _
      · exact Nat.le_of_lt ((List.pairwise_cons.mp hrest).1 x hx)
  refine ⟨hlowest r, fun ⟨hpr, hr⟩ => ?_⟩
  cases hfind : allRails.find? p with
  | none => exact absurd hpr (List.find?_eq_none.mp hfind r (mem_allRails r))
  | some y =>
    obtain ⟨hpy, hy⟩ := hlowest y hfind
    exact congrArg some (Fin.le_antisymm (hy r hpr) (hr y hpy))

theorem oneByte_val_inj {r x : Rail} (h : oneByte r.val = oneByte x.val) : r = x := by
  have hval := congrArg BitVec.toNat h
  simp only [oneByte, BitVec.toNat_ofNat] at hval
  have hr := r.isLt
  have hx := x.isLt
  exact Fin.ext (by omega)

/-- A table that passes checks 1 to 6 of COMMIT, of which the cycle check is left (R168, R169). -/
structure PassesOtherChecks (s : State) : Prop where
  part : partFault s.part = none
  someRail : ∃ r : Rail, (s.record r).defined = true
  rails : ∀ r : Rail, railFaultAt s r = none

section
variable {s : State} (h : PassesOtherChecks s)
include h

theorem PassesOtherChecks.commitFault_eq :
    commitFault s = (allRails.find? s.onCycle).map fun r => (.cycle, oneByte r.val) := by
  obtain ⟨r, hr⟩ := h.someRail
  have hnotAll : ¬ allRails.all (fun r => !(s.record r).defined) = true := fun hall => by
    have habsent := List.all_eq_true.mp hall r (mem_allRails r)
    rw [hr] at habsent
    cases habsent
  have hnone : allRails.findSome? (fun r => (railFaultAt s r).map fun reason => (reason, oneByte r.val)) = none :=
    List.findSome?_eq_none_iff.mpr fun r _ => by rw [h.rails r]; rfl
  simp only [commitFault, h.part, if_neg hnotAll, hnone]

theorem PassesOtherChecks.commitFault_eq_cycle_iff (r : Rail) :
    commitFault s = some (.cycle, oneByte r.val) ↔ Above s r r ∧ ∀ x : Rail, Above s x x → r ≤ x := by
  simp only [← s.onCycle_iff]
  rw [← find?_allRails_eq_some_iff, h.commitFault_eq, Option.map_eq_some_iff]
  refine ⟨fun ⟨x, hx, hbyte⟩ => ?_, fun hr => ⟨r, hr, rfl⟩⟩
  rw [hx, oneByte_val_inj (Prod.ext_iff.mp hbyte).2]

theorem PassesOtherChecks.commitFault_eq_none_iff : commitFault s = none ↔ ∀ r : Rail, ¬ Above s r r := by
  simp only [h.commitFault_eq, Option.map_eq_none_iff, List.find?_eq_none, s.onCycle_iff, mem_allRails, forall_const]

end

/-! ### A table without a cycle -/

/-- A byte names a rail where it is that rail's number and the rail is defined. -/
theorem State.namedRail_eq_some_iff (s : State) (b : Byte) (r : Rail) :
    s.namedRail b = some r ↔ b.toNat = r.val ∧ (s.record r).defined = true := by
  unfold State.namedRail
  split
  · next h =>
    constructor
    · intro hname
      obtain ⟨hdefined, heq⟩ := Option.ite_none_right_eq_some.mp hname
      cases heq
      exact ⟨rfl, hdefined⟩
    · rintro ⟨hb, hdefined⟩
      obtain rfl : (⟨b.toNat, h⟩ : Rail) = r := Fin.ext hb
      rw [if_pos hdefined]
  · next h => exact ⟨nofun, fun ⟨hb, _⟩ => absurd (hb ▸ r.isLt) h⟩

theorem RailRecord.mem_parentRails_iff (x : RailRecord) (p : Rail) :
    p ∈ x.parentRails ↔ ∃ b ∈ x.parents, b.toNat = p.val := by
  simp only [RailRecord.parentRails, List.mem_filterMap]
  refine exists_congr fun b => and_congr_right fun _ => ?_
  split
  · next h => rw [Option.some_inj, Fin.ext_iff]
  · next h => exact ⟨nofun, fun hb => absurd (hb ▸ p.isLt) h⟩

/-- A defined rail that passes the checks of R169 passes the one of its parent list. -/
theorem parentsOk_of_railFaultAt {s : State} {r : Rail} (h : railFaultAt s r = none) (hr : (s.record r).defined = true) :
    parentsOk s r (s.record r) = true := by
  cases hok : parentsOk s r (s.record r) with
  | true => rfl
  | false =>
    have hpresent : ¬ (s.record r).defined = false := by
      rw [hr]
      nofun
    unfold railFaultAt at h
    dsimp only at h
    rw [if_neg hpresent, if_pos hok] at h
    split at h
    · cases h
    · split at h <;> cases h

/-- Check c of R169 lets defined rails alone be parents. -/
theorem defined_of_mem_parentsOf {s : State} {p c : Rail} (hc : railFaultAt s c = none) (hp : p ∈ s.parentsOf c) :
    (s.record p).defined = true := by
  have hdefined := State.defined_of_isParent ((s.mem_parentsOf_iff p c).mp hp)
  rw [State.parentsOf, if_pos hdefined, RailRecord.mem_parentRails_iff] at hp
  obtain ⟨b, hb, hbp⟩ := hp
  have hok := parentsOk_of_railFaultAt hc hdefined
  simp only [parentsOk, Bool.and_eq_true, List.all_eq_true] at hok
  obtain ⟨⟨-, hnamed⟩, -⟩ := hok
  obtain ⟨q, hq, -⟩ := (Option.any_eq_true _ _).mp (hnamed b hb)
  obtain ⟨hbq, hqdefined⟩ := (s.namedRail_eq_some_iff b q).mp hq
  rwa [Fin.ext (hbp.symm.trans hbq)]

/-- Each rail of the list but the first is a parent of the one before it. -/
def ParentChain (s : State) (chain : List Rail) : Prop :=
  ∀ (i : Nat) (c p : Rail), chain[i]? = some c → chain[i + 1]? = some p → s.isParent p c = true

theorem ParentChain.tail {s : State} {c : Rail} {rest : List Rail} (h : ParentChain s (c :: rest)) : ParentChain s rest :=
  fun i => h (i + 1)

theorem ParentChain.above_head {s : State} {c : Rail} {rest : List Rail} (h : ParentChain s (c :: rest)) :
    ∀ x ∈ rest, Above s x c := by
  induction rest generalizing c with
  | nil => exact fun _ hx => absurd hx List.not_mem_nil
  | cons p rest ih =>
    have hp : s.isParent p c = true := h 0 c p rfl rfl
    intro x hx
    obtain rfl | hx := List.mem_cons.mp hx
    · exact .of_isParent hp
    · exact (ih h.tail x hx).toChild hp

section
variable {s : State} (hacyclic : ∀ r : Rail, ¬ Above s r r)
include hacyclic

/-- Above a rail that stands above `r` there are fewer rails than above `r`: that rail itself is no longer one of them. -/
theorem railCount_ancestors_lt {a r : Rail} (h : Above s a r) : railCount (s.ancestors a) < railCount (s.ancestors r) := by
  refine railCount_lt (fun q hq => ?_) ((s.mem_ancestors_iff a r).mpr h) (mt (s.mem_ancestors_iff a a).mp (hacyclic a))
  rw [s.mem_ancestors_iff] at hq ⊢
  exact hq.trans h

/-- Going up ends: each step leaves fewer rails above. -/
theorem wellFounded_above : WellFounded (Above s) :=
  Subrelation.wf (railCount_ancestors_lt hacyclic) (measure fun r => railCount (s.ancestors r)).wf

/-- Every defined rail is a root or stands below a defined one (R7). -/
theorem exists_root_above (hrails : ∀ r : Rail, railFaultAt s r = none) (r : Rail) (hr : (s.record r).defined = true) :
    s.parentsOf r = [] ∨ ∃ a : Rail, Above s a r ∧ (s.record a).defined = true ∧ s.parentsOf a = [] := by
  induction r using (wellFounded_above hacyclic).induction with
  | _ r ih =>
    cases hparents : s.parentsOf r with
    | nil => exact .inl rfl
    | cons p ps =>
      have hp : p ∈ s.parentsOf r := hparents ▸ List.mem_cons_self
      have hpr : Above s p r := .of_isParent ((s.mem_parentsOf_iff p r).mp hp)
      have hdefined := defined_of_mem_parentsOf (hrails r) hp
      right
      obtain hroot | ⟨a, hap, ha⟩ := ih p hpr hdefined
      · exact ⟨p, hpr, hdefined, hroot⟩
      · exact ⟨a, hap.trans hpr, ha⟩

/-- In a chain of parents each rail stands above all before it, so it is none of them. -/
theorem ParentChain.nodup {chain : List Rail} (h : ParentChain s chain) : chain.Nodup := by
  induction chain with
  | nil => exact List.nodup_nil
  | cons c rest ih =>
    exact List.nodup_cons.mpr ⟨fun hc => hacyclic c (h.above_head c hc), ih h.tail⟩

end

/-- Settles O49: the search lists exactly the rails above (`State.mem_ancestors_iff`), so the first rail found on a cycle is
the lowest; without a cycle going up ends, at a root. -/
theorem cycleCheckFindsTheLowestRail : Obligations.CycleCheckFindsTheLowestRail := by
  intro s hpart hsome hrails
  have h : PassesOtherChecks s := ⟨hpart, hsome, hrails⟩
  refine ⟨h.commitFault_eq_cycle_iff, h.commitFault_eq_none_iff, fun hnone => ?_⟩
  have hacyclic := h.commitFault_eq_none_iff.mp hnone
  refine ⟨?_, fun _ => ParentChain.nodup hacyclic, exists_root_above hacyclic hrails⟩
  obtain ⟨r, hr⟩ := hsome
  obtain hroot | ⟨a, -, ha⟩ := exists_root_above hacyclic hrails r hr
  · exact ⟨r, hr, hroot⟩
  · exact ⟨a, ha⟩

end Sys2Proof.Machine
end

/-! ### Requests that pass the common checks (R130, R131) -/

section
namespace Sys2Proof.Machine

section
variable {s : State} {k : Kind} {l : Link} {f : Frame}

/-- The session check lets ATTACH and DETACH alone pass outside ATTACHED (R130). -/
theorem Passes.attached (h : Passes s k l f) (ha : k ≠ .attach) (hd : k ≠ .detach) : (s.session l).state = .attached := by
  have hsession := h.session
  cases hs : (s.session l).state with
  | attached => rfl
  | detached =>
    rw [hs, sessionRefusal, if_neg ha] at hsession
    cases hsession
  | expired =>
    rw [hs, sessionRefusal, if_neg (not_or.mpr ⟨ha, hd⟩)] at hsession
    cases hsession

/-- A request that passes, other than ATTACH and DETACH, is answered by its own rules with the lease restarted. -/
theorem Passes.serve_eq (h : Passes s k l f) (ha : k ≠ .attach) (hd : k ≠ .detach) (body : State → Answer) :
    s.serve k l f body =
      (body { s with sessions := s.leaseRestarted l }).st.respond l f.tag
        (body { s with sessions := s.leaseRestarted l }).status
        (body { s with sessions := s.leaseRestarted l }).data := by
  rw [State.serve_taken body h, State.renewLease_attached (h.attached ha hd)]

end

/-! ### The checks of COMMIT look at the table alone (R171) -/

section
variable {s t : State} (hrecords : t.records = s.records)
include hrecords

theorem State.record_of_records_eq (r : Rail) : t.record r = s.record r := by
  rw [State.record, hrecords, State.record]

theorem State.isParent_of_records_eq (p c : Rail) : t.isParent p c = s.isParent p c := by
  simp only [State.isParent, State.parentsOf, State.record_of_records_eq hrecords]

theorem State.namedRail_of_records_eq (b : Byte) : t.namedRail b = s.namedRail b :=
  Option.ext fun r => by
    rw [State.namedRail_eq_some_iff, State.namedRail_eq_some_iff, State.record_of_records_eq hrecords]

theorem parentsOk_of_records_eq (r : Rail) (x : RailRecord) : parentsOk t r x = parentsOk s r x := by
  simp only [parentsOk, State.namedRail_of_records_eq hrecords]

theorem railFaultAt_of_table_eq (hpart : t.part = s.part) (r : Rail) : railFaultAt t r = railFaultAt s r := by
  rw [railFaultAt, State.record_of_records_eq hrecords, hpart, parentsOk_of_records_eq hrecords, railFaultAt]

theorem State.onCycle_of_records_eq (r : Rail) : t.onCycle r = s.onCycle r := by
  have habove (listed : List Rail) (n : Nat) : t.ancestorsFrom n listed = s.ancestorsFrom n listed := by
    induction n generalizing listed with
    | zero => rfl
    | succ n ih =>
      rw [State.ancestorsFrom_succ, State.ancestorsFrom_succ, ih]
      simp only [State.withParents, State.isParent_of_records_eq hrecords]
  simp only [State.onCycle, State.ancestors, State.parentsOf, State.record_of_records_eq hrecords, habove]

theorem commitFault_of_table_eq (hpart : t.part = s.part) : commitFault t = commitFault s := by
  have hcycle : t.onCycle = s.onCycle := funext (State.onCycle_of_records_eq hrecords)
  simp only [commitFault, hpart, State.record_of_records_eq hrecords, railFaultAt_of_table_eq hrecords hpart, hcycle]

end

/-! ### COMMIT that fails -/

theorem exec_commit (l : Link) (f : Frame) (v : Nat) (s : State) :
    exec (.commit l f v) s = .next (State.serve { s with sense := v } .commit l f (commitAnswer v)) := rfl

theorem commitAnswer_of_fault {s : State} {reason : CommitReason} {rail : Byte} (v : Nat)
    (h : commitFault s = some (reason, rail)) : commitAnswer v s = ⟨s, .commitFailed, [reason.code, rail]⟩ := by
  simp only [commitAnswer, h]

/-- The lifecycle check lets COMMIT pass in UNCOMMITTED alone (R164). -/
theorem Passes.uncommitted {s : State} {l : Link} {f : Frame} (h : Passes s .commit l f) : s.lifecycle = .uncommitted := by
  have hlifecycle := h.lifecycle
  cases hs : s.lifecycle with
  | uncommitted => rfl
  | committed =>
    rw [hs] at hlifecycle
    cases hlifecycle

/-- A COMMIT that fails writes the lease, which the session check has restarted, and the response. -/
theorem serve_commit_of_fault {s : State} {l : Link} {f : Frame} {reason : CommitReason} {rail : Byte} (v : Nat)
    (h : Passes s .commit l f) (hfault : commitFault s = some (reason, rail)) :
    s.serve .commit l f (commitAnswer v) =
      State.respond { s with sessions := s.leaseRestarted l } l f.tag .commitFailed [reason.code, rail] := by
  have hfault' : commitFault { s with sessions := s.leaseRestarted l } = some (reason, rail) :=
    (commitFault_of_table_eq (s := s) rfl rfl).trans hfault
  rw [h.serve_eq nofun nofun, commitAnswer_of_fault v hfault']

/-- Settles O47: the checks read the table alone, so neither the stored SENSE nor the restarted lease changes what they find, and
the answer to a fault writes nothing. -/
theorem failedCommitChangesNothing : Obligations.FailedCommitChangesNothing := by
  refine ⟨fun l f v s reason rail h hfault => ?_, fun s t hrecords hpart => commitFault_of_table_eq hrecords hpart⟩
  have hpasses : Passes { s with sense := v } .commit l f := ⟨h.receiver, h.frame, h.session, h.lifecycle⟩
  have hfault' : commitFault { s with sense := v } = some (reason, rail) :=
    (commitFault_of_table_eq (s := s) rfl rfl).trans hfault
  exact ⟨_, (exec_commit l f v s).trans (congrArg _ (serve_commit_of_fault v hpasses hfault')), answered_respond rfl, rfl,
    h.uncommitted⟩

end Sys2Proof.Machine
end

/-! ### The fields of a rail record's bytes (R165, R190) -/

section
namespace Sys2Proof.Machine

section
variable (b : Byte)

theorem toNat_extractLsb' (start len : Nat) : (b.extractLsb' start len).toNat = b.toNat / 2 ^ start % 2 ^ len := by
  rw [BitVec.extractLsb'_toNat, Nat.shiftRight_eq_div_pow]

theorem getLsbD_eq_decide (i : Nat) : b.getLsbD i = decide (b.toNat / 2 ^ i % 2 = 1) :=
  Nat.testBit_eq_decide_div_mod_eq

/-- The upper four bits of a byte. -/
theorem toNat_upperNibble : (b.extractLsb' 4 4).toNat = b.toNat / 16 := by
  have hb := b.isLt
  rw [toNat_extractLsb']
  omega

end

theorem recordLevels_eq (bs : List Byte) : recordLevels bs = (bs.getD 2 0).toNat / 16 := toNat_upperNibble _

theorem recordParents_eq (bs : List Byte) : recordParents bs = (bs.getD 1 0).toNat % 8 := by
  rw [recordParents, toNat_extractLsb']
  omega

theorem recordLengthOk_iff (bs : List Byte) :
    recordLengthOk bs = true ↔ bs.length = 6 + 2 * ((bs.getD 2 0).toNat / 16) + (bs.getD 1 0).toNat % 8 := by
  rw [recordLengthOk, beq_iff_eq, recordLevels_eq, recordParents_eq]

/-- Value `i` is spelled by the bytes `2 * i` and `2 * i + 1`, the most significant first. -/
theorem readPairs_eq_map (n : Nat) (bs : List Byte) (h : 2 * n ≤ bs.length) :
    readPairs n bs = (List.range n).map fun i => bs.getD (2 * i) 0 ++ bs.getD (2 * i + 1) 0 := by
  induction n generalizing bs with
  | zero => rfl
  | succ n ih =>
    match bs, h with
    | hi :: lo :: rest, h =>
      have hrest : 2 * n ≤ rest.length := by
        simp only [List.length_cons] at h
        omega
      rw [readPairs, ih rest hrest, List.range_succ_eq_map, List.map_cons, List.map_map]
      rfl

theorem toNat_append_bytes (hi lo : Byte) : (hi ++ lo).toNat = hi.toNat * 256 + lo.toNat := by
  have hlo : lo.toNat < 2 ^ 8 := lo.isLt
  rw [BitVec.toNat_append, ← Nat.shiftLeft_add_eq_or_of_lt hlo, Nat.shiftLeft_eq]

section
variable (bs : List Byte)

theorem defined_parseRailRecord : (parseRailRecord bs).defined = decide ((bs.getD 1 0).toNat / 128 = 1) := by
  have hb := (bs.getD 1 0).isLt
  rw [parseRailRecord, getLsbD_eq_decide, decide_eq_decide]
  omega

theorem pgMode_parseRailRecord :
    (parseRailRecord bs).pgMode = if (bs.getD 1 0).toNat / 64 % 2 = 1 then .timed else .monitored := by
  rw [parseRailRecord, getLsbD_eq_decide _ 6]
  simp only [decide_eq_true_eq, Nat.reducePow]

theorem shedClass_parseRailRecord :
    (parseRailRecord bs).shedClass = if (bs.getD 1 0).toNat / 32 % 2 = 1 then .shed else .keep := by
  rw [parseRailRecord, getLsbD_eq_decide _ 5]
  simp only [decide_eq_true_eq, Nat.reducePow]

theorem priority_parseRailRecord : (parseRailRecord bs).priority.toNat = (bs.getD 1 0).toNat / 8 % 4 :=
  toNat_extractLsb' _ 3 2

theorem levelCount_parseRailRecord : (parseRailRecord bs).levelCount.toNat = (bs.getD 2 0).toNat / 16 :=
  toNat_upperNibble _

theorem retryLimit_parseRailRecord : (parseRailRecord bs).retryLimit.toNat = (bs.getD 2 0).toNat % 16 :=
  (toNat_extractLsb' _ 0 4).trans (by omega)

theorem parents_parseRailRecord : (parseRailRecord bs).parents = bs.drop (6 + 2 * ((bs.getD 2 0).toNat / 16)) := by
  rw [← recordLevels_eq]
  rfl

variable (h : recordLengthOk bs = true)
include h

/-- The costs of a record that carries as many entries as it names. -/
theorem costs_parseRailRecord :
    (parseRailRecord bs).costs =
      (List.range ((bs.getD 2 0).toNat / 16)).map fun i => bs.getD (6 + 2 * i) 0 ++ bs.getD (7 + 2 * i) 0 := by
  rw [recordLengthOk_iff] at h
  have hlong : 2 * recordLevels bs ≤ (bs.drop 6).length := by
    rw [recordLevels_eq, List.length_drop]
    omega
  have hbyte (i : Nat) : (bs.drop 6).getD i 0 = bs.getD (6 + i) 0 := by
    simp only [List.getD_eq_getElem?_getD, List.getElem?_drop]
  have hnext (i : Nat) : 6 + (2 * i + 1) = 7 + 2 * i := by omega
  have hcosts := readPairs_eq_map (recordLevels bs) (bs.drop 6) hlong
  simp only [hbyte, hnext, recordLevels_eq] at hcosts
  rw [parseRailRecord, recordLevels_eq]
  exact hcosts

theorem length_costs_parseRailRecord : (parseRailRecord bs).costs.length = (bs.getD 2 0).toNat / 16 := by
  rw [costs_parseRailRecord bs h, List.length_map, List.length_range]

theorem cost_parseRailRecord (i : Nat) (hi : i < (bs.getD 2 0).toNat / 16) :
    ((parseRailRecord bs).costs.getD i 0).toNat =
      (bs.getD (6 + 2 * i) 0).toNat * 256 + (bs.getD (7 + 2 * i) 0).toNat := by
  rw [costs_parseRailRecord bs h, ← toNat_append_bytes]
  rw [List.getD_eq_getElem?_getD, List.getElem?_map, List.getElem?_range hi]
  rfl

end

/-! ### WRITE_RAIL -/

theorem exec_writeRail (l : Link) (f : Frame) (s : State) :
    exec (.writeRail l f) s = .next (s.serve .writeRail l f (writeRailAnswer f)) := rfl

theorem writeRailAnswer_taken {f : Frame} {r : Rail} (s : State) (hr : (argByte f 0).toNat = r.val)
    (hlength : recordLengthOk f.args = true) :
    writeRailAnswer f s = ⟨s.setRecord r (parseRailRecord f.args), .ok, []⟩ := by
  have hlt : (argByte f 0).toNat < 16 := hr ▸ r.isLt
  have hrail : (⟨(argByte f 0).toNat, hlt⟩ : Rail) = r := Fin.ext hr
  rw [writeRailAnswer, dif_pos hlt, if_pos hlength, hrail]

theorem writeRailAnswer_refused {f : Frame} (s : State) (h : 16 ≤ (argByte f 0).toNat ∨ ¬ recordLengthOk f.args = true) :
    writeRailAnswer f s = ⟨s, .badArgument, []⟩ := by
  unfold writeRailAnswer
  split
  · next hlt => exact if_neg (h.resolve_left (Nat.not_le.mpr hlt))
  · rfl

/-- The state after a WRITE_RAIL that is taken. -/
theorem exec_writeRail_taken {l : Link} {f : Frame} {s : State} {r : Rail} (h : Passes s .writeRail l f)
    (hr : (argByte f 0).toNat = r.val) (hlength : recordLengthOk f.args = true) :
    exec (.writeRail l f) s =
      .next (({ s with sessions := s.leaseRestarted l }.setRecord r (parseRailRecord f.args)).respond l f.tag .ok []) := by
  rw [exec_writeRail, h.serve_eq nofun nofun, writeRailAnswer_taken _ hr hlength]

/-- The state after a WRITE_RAIL that is refused. -/
theorem exec_writeRail_refused {l : Link} {f : Frame} {s : State} (h : Passes s .writeRail l f)
    (hbad : 16 ≤ (argByte f 0).toNat ∨ ¬ recordLengthOk f.args = true) :
    exec (.writeRail l f) s =
      .next (State.respond { s with sessions := s.leaseRestarted l } l f.tag .badArgument []) := by
  rw [exec_writeRail, h.serve_eq nofun nofun, writeRailAnswer_refused _ hbad]

/-- Settles O44: what is written is the record that the bytes spell, whose fields the lemmas above give one by one. -/
theorem writeRailReplacesTheRecord : Obligations.WriteRailReplacesTheRecord := by
  intro l f s h
  refine ⟨fun r hr hcount => ?_, fun hbad => ?_⟩
  · have hlength : recordLengthOk f.args = true := (recordLengthOk_iff f.args).mpr hcount
    refine ⟨_, exec_writeRail_taken h hr hlength, answered_respond rfl, rfl, fun x hx => ?_, ?_⟩
    · exact (State.record_setRecord _ r x _).trans (if_neg hx)
    · have hrecord : ((({ s with sessions := s.leaseRestarted l } : State).setRecord r (parseRailRecord f.args)).respond
          l f.tag .ok []).record r = parseRailRecord f.args := (State.record_setRecord _ r r _).trans (if_pos rfl)
      rw [hrecord]
      exact ⟨defined_parseRailRecord _, pgMode_parseRailRecord _, shedClass_parseRailRecord _, priority_parseRailRecord _,
        levelCount_parseRailRecord _, retryLimit_parseRailRecord _, rfl, rfl, rfl,
        length_costs_parseRailRecord _ hlength, cost_parseRailRecord _ hlength, parents_parseRailRecord _⟩
  · have hbad' : 16 ≤ (argByte f 0).toNat ∨ ¬ recordLengthOk f.args = true :=
      hbad.imp_right (mt (recordLengthOk_iff f.args).mp)
    exact ⟨_, exec_writeRail_refused h hbad', answered_respond rfl, rfl⟩

end Sys2Proof.Machine
end

/-! ### The elementary changes that an event is made of (R18, R54, R83) -/

section
namespace Sys2Proof.Machine

/-- One move of the rails or the arbiter as they react within an event, with what it finds where it is made: a target taken, a
rail's move between its states, a grant, or a change of the queue. -/
inductive Move : State → State → Prop where
  | target (s : State) (r : Rail) : Move s (s.modRail r fun y => { y with target := s.targetFor r })
  | wait (s : State) (r : Rail) : (s.rail r).state = .off → (s.rail r).target ≠ 0 → Move s (s.enterWaiting r)
  | unwait (s : State) (r : Rail) : (s.rail r).state = .waiting → (s.rail r).target = 0 → Move s (s.leaveWaiting r)
  | drain (s : State) (r : Rail) (c : DrainCause) : (s.rail r).state.running = true → Move s (s.enterDraining r c)
  | slewDown (s : State) (r : Rail) : (s.rail r).state = .on → (s.rail r).target ≠ 0 →
      (s.rail r).target < (s.rail r).level → Move s (s.enterSlewing r)
  | drained (s : State) (r : Rail) : (s.rail r).state = .draining → (s.rail r).drainFinished = true →
      s.heldByDraining r = false → Move s (s.finishDrain r)
  | start (s : State) (r : Rail) (n : Nat) : s.requestOf r = some (.start, n) → s.fits n = true →
      Move s ((s.takeBudget r n).enterRamping r)
  | backfeed (s : State) (r : Rail) (n : Nat) : s.requestOf r = some (.start, n) → s.fits n = true →
      s.monitored r = true → (s.rail r).pg = .high → Move s ((s.takeBudget r n).enterFault r .backfeed)
  | raise (s : State) (r : Rail) (n : Nat) : s.requestOf r = some (.raise, n) → s.fits n = true →
      Move s ((s.takeBudget r n).enterSlewing r)
  | wholeFall (s : State) (r : Rail) (level : Nat) : (s.rail r).state = .slewing → (s.rail r).target = 0 →
      Move s ((s.callBackSlew r level).enterDraining r .normal)
  | reconcile (s : State) : Move s s.reconcile
  | place (s : State) (r : Rail) : Move s (s.placeRequest r)
  | pop (s : State) (q : QueueEntry) (rest : List QueueEntry) : s.budgetQueue = q :: rest →
      Move s { s with budgetQueue := rest }

/-- Any number of steps of a relation, one after the other. -/
inductive Steps {α : Type} (R : α → α → Prop) (a : α) : α → Prop where
  | refl : Steps R a a
  | tail {b c : α} : Steps R a b → R b c → Steps R a c

section
variable {α : Type} {R : α → α → Prop} {a b c : α}

theorem Steps.trans (h : Steps R a b) (h' : Steps R b c) : Steps R a c := by
  induction h' with
  | refl => exact h
  | tail _ hstep ih => exact ih.tail hstep

theorem Steps.single (h : R a b) : Steps R a b := Steps.refl.tail h

theorem Steps.mono {Q : α → α → Prop} (hRQ : ∀ a b, R a b → Q a b) (h : Steps R a b) : Steps Q a b := by
  induction h with
  | refl => exact .refl
  | tail _ hstep ih => exact ih.tail (hRQ _ _ hstep)

end

/-- The moves of an event, one after the other. -/
def Moves : State → State → Prop := Steps Move

theorem Moves.refl {s : State} : Moves s s := Steps.refl

theorem Moves.trans {s t u : State} (h : Moves s t) (h' : Moves t u) : Moves s u := Steps.trans h h'

theorem Move.one {s t : State} (h : Move s t) : Moves s t := Steps.single h

/-- An invariant that every move keeps holds after them. -/
theorem Moves.keep {I : State → Prop} (hI : ∀ s t, Move s t → I s → I t) {s t : State} (h : Moves s t) (hs : I s) :
    I t := by
  induction h with
  | refl => exact hs
  | tail _ hmove ih => exact hI _ _ hmove ih

/-- Where every step of a fold makes moves, so does the fold. -/
theorem Moves.foldl {α : Type} {f : State → α → State} (h : ∀ s a, Moves s (f s a)) (xs : List α) (s : State) :
    Moves s (xs.foldl f s) := by
  induction xs generalizing s with
  | nil => exact .refl
  | cons a xs ih => exact (h s a).trans (ih _)

theorem Moves.foldl_event {α : Type} {f : Event → α → Event} (h : ∀ e a, Moves e.st (f e a).st) (xs : List α)
    (e : Event) : Moves e.st (xs.foldl f e).st := by
  induction xs generalizing e with
  | nil => exact .refl
  | cons a xs ih => exact (h e a).trans (ih _)

/-! ### Targets and drains -/

/-- A move that the rails make without the arbiter: a target taken, or a rail's move that asks for no grant. -/
inductive OwnMove : State → State → Prop where
  | target (s : State) (r : Rail) : OwnMove s (s.modRail r fun y => { y with target := s.targetFor r })
  | wait (s : State) (r : Rail) : (s.rail r).state = .off → (s.rail r).target ≠ 0 → OwnMove s (s.enterWaiting r)
  | unwait (s : State) (r : Rail) : (s.rail r).state = .waiting → (s.rail r).target = 0 → OwnMove s (s.leaveWaiting r)
  | drain (s : State) (r : Rail) (c : DrainCause) : (s.rail r).state.running = true → OwnMove s (s.enterDraining r c)
  | slewDown (s : State) (r : Rail) : (s.rail r).state = .on → (s.rail r).target ≠ 0 →
      (s.rail r).target < (s.rail r).level → OwnMove s (s.enterSlewing r)
  | drained (s : State) (r : Rail) : (s.rail r).state = .draining → (s.rail r).drainFinished = true →
      s.heldByDraining r = false → OwnMove s (s.finishDrain r)

theorem OwnMove.move {s t : State} (h : OwnMove s t) : Move s t := by
  cases h with
  | target r => exact .target s r
  | wait r hs ht => exact .wait s r hs ht
  | unwait r hs ht => exact .unwait s r hs ht
  | drain r c hs => exact .drain s r c hs
  | slewDown r hs ht hl => exact .slewDown s r hs ht hl
  | drained r hs hf hd => exact .drained s r hs hf hd

/-- The moves of the rails on their own, one after the other. -/
def OwnMoves : State → State → Prop := Steps OwnMove

theorem OwnMoves.refl {s : State} : OwnMoves s s := Steps.refl

theorem OwnMoves.trans {s t u : State} (h : OwnMoves s t) (h' : OwnMoves t u) : OwnMoves s u :=
  Steps.trans h h'

theorem OwnMove.one {s t : State} (h : OwnMove s t) : OwnMoves s t := Steps.single h

theorem OwnMoves.moves {s t : State} (h : OwnMoves s t) : Moves s t :=
  Steps.mono (fun _ _ h => OwnMove.move h) h

theorem OwnMoves.foldl {α : Type} {f : State → α → State} (h : ∀ s a, OwnMoves s (f s a)) (xs : List α) (s : State) :
    OwnMoves s (xs.foldl f s) := by
  induction xs generalizing s with
  | nil => exact .refl
  | cons a xs ih => exact (h s a).trans (ih _)

theorem OwnMoves.foldl_event {α : Type} {f : Event → α → Event} (h : ∀ e a, OwnMoves e.st (f e a).st) (xs : List α)
    (e : Event) : OwnMoves e.st (xs.foldl f e).st := by
  induction xs generalizing e with
  | nil => exact .refl
  | cons a xs ih => exact (h e a).trans (ih _)

theorem ownMoves_examineTarget {r : Rail} {e : Event} (h : (e.st.rail r).state = .on) :
    OwnMoves e.st (examineTarget r e).st := by
  unfold examineTarget
  dsimp only
  split
  · exact (OwnMove.drain e.st r .normal (by rw [h]; rfl)).one
  · next htarget =>
    split
    · next hlevel => exact (OwnMove.slewDown e.st r h htarget hlevel).one
    · exact .refl

theorem ownMoves_actOnTarget (r : Rail) (e : Event) : OwnMoves e.st (actOnTarget r e).st := by
  unfold actOnTarget
  dsimp only
  split
  · next hx =>
    split
    · exact .refl
    · next htarget => exact (OwnMove.wait e.st r hx htarget).one
  · next hx =>
    split
    · next htarget => exact (OwnMove.unwait e.st r hx htarget).one
    · exact .refl
  · next hx =>
    split
    · exact (OwnMove.drain e.st r .normal (by rw [hx]; rfl)).one
    · exact .refl
  · next hx => exact ownMoves_examineTarget hx
  · exact .refl
  · exact .refl
  · exact .refl

theorem ownMoves_takeTarget (r : Rail) (e : Event) : OwnMoves e.st (takeTarget r e).st := by
  unfold takeTarget
  dsimp only
  split
  · exact .refl
  · have hact : ∀ e1 : Event, e1.st = (e.st.modRail r fun y => { y with target := e.st.targetFor r }) →
        OwnMoves e.st (actOnTarget r e1).st := fun e1 h1 =>
      (h1 ▸ (OwnMove.target e.st r).one).trans (ownMoves_actOnTarget r e1)
    split <;> exact hact _ rfl

theorem ownMoves_takeDeferredOff (r : Rail) (e : Event) : OwnMoves e.st (takeDeferredOff r e).st := by
  unfold takeDeferredOff
  dsimp only
  split
  · next h =>
    obtain ⟨hs, hf, hd⟩ := h
    exact (OwnMove.drained e.st r hs hf hd).one
  · exact .refl

theorem ownMoves_settle (e : Event) : OwnMoves e.st (settle e).st :=
  .foldl_event (fun e r => (ownMoves_takeTarget r e).trans (ownMoves_takeDeferredOff r _)) _ e

theorem ownMoves_railEvent (e : Event) : OwnMoves e.st (railEvent e).st := ownMoves_settle e

theorem ownMoves_settleAfter (e : Event) : OwnMoves e.st (settleAfter e).st := ownMoves_settle { e with log := [] }

/-! ### The cascade -/

theorem ownMoves_forceOff (k : FaultKind) (e : Event) (r : Rail) : OwnMoves e.st (forceOff k e r).st := by
  unfold forceOff
  split
  · next h => exact (OwnMove.drain e.st r .parentFault h).one
  · exact .refl

theorem ownMoves_cascade (k : FaultKind) (n : Nat) (rs : List Rail) (e : Event) : OwnMoves e.st (cascade k n rs e).st := by
  induction n generalizing rs e with
  | zero => exact .refl
  | succ n ih =>
    unfold cascade
    split
    · exact .refl
    · exact (OwnMoves.foldl_event (ownMoves_forceOff k) _ e).trans (ih _ _)

theorem ownMoves_drainRunning (s : State) (c : DrainCause) : OwnMoves s (s.drainRunning c) :=
  .foldl (fun t r => by
    split
    · next h => exact (OwnMove.drain t r c h).one
    · exact .refl) _ s

/-! ### The same as moves -/

theorem moves_examineTarget {r : Rail} {e : Event} (h : (e.st.rail r).state = .on) :
    Moves e.st (examineTarget r e).st := (ownMoves_examineTarget h).moves

theorem moves_takeTarget (r : Rail) (e : Event) : Moves e.st (takeTarget r e).st := (ownMoves_takeTarget r e).moves

theorem moves_takeDeferredOff (r : Rail) (e : Event) : Moves e.st (takeDeferredOff r e).st := (ownMoves_takeDeferredOff r e).moves

theorem moves_railEvent (e : Event) : Moves e.st (railEvent e).st := (ownMoves_railEvent e).moves

theorem moves_settleAfter (e : Event) : Moves e.st (settleAfter e).st := (ownMoves_settleAfter e).moves

theorem moves_cascade (k : FaultKind) (n : Nat) (rs : List Rail) (e : Event) : Moves e.st (cascade k n rs e).st :=
  (ownMoves_cascade k n rs e).moves

/-- After the entry into FAULT itself, the cascade and the settling are moves. -/
theorem moves_faultRail (r : Rail) (k : FaultKind) (e : Event) : Moves (e.st.enterFault r k) (faultRail r k e).st :=
  (moves_cascade k _ _ ((e.mapState fun s => s.enterFault r k).announce (.enteredFault r k))).trans (moves_settleAfter _)

theorem moves_drainRunning (s : State) (c : DrainCause) : Moves s (s.drainRunning c) := (ownMoves_drainRunning s c).moves

/-! ### The grant rule -/

theorem moves_takeWholeFall (before s : State) (r : Rail) : Moves s (takeWholeFall before s r) := by
  unfold takeWholeFall
  dsimp only
  split
  · next h =>
    obtain ⟨-, hs, ht⟩ := h
    exact (Move.wholeFall s r _ hs ht).one
  · exact .refl

theorem moves_takeWholeFalls (before : State) (e : Event) : Moves e.st (takeWholeFalls before e).st :=
  .foldl (moves_takeWholeFall before) allRails e.st

theorem State.pg_takeBudget (s : State) (r q : Rail) (n : Nat) : ((s.takeBudget r n).rail q).pg = (s.rail q).pg := by
  rw [State.rail_takeBudget]
  split
  · next h => rw [h]
  · rfl

theorem moves_handGrant (before : State) {r : Rail} {k : GrantKind} {n : Nat} {e : Event}
    (hreq : e.st.requestOf r = some (k, n)) (hfits : e.st.fits n = true) :
    Moves e.st (handGrant before r k n e).st := by
  unfold handGrant
  split
  · dsimp only
    split
    · next h =>
      obtain ⟨hm, hpg⟩ := h
      have hpg' : (e.st.rail r).pg = .high := by
        rw [← e.st.pg_takeBudget r r n]
        exact hpg
      have hfault : Moves e.st ((e.st.takeBudget r n).enterFault r .backfeed) :=
        (Move.backfeed e.st r n hreq hfits hm hpg').one
      exact (hfault.trans (moves_faultRail r .backfeed (e.mapState fun s => s.takeBudget r n))).trans
        (moves_takeWholeFalls before _)
    · exact (Move.start e.st r n hreq hfits).one
  · exact (Move.raise e.st r n hreq hfits).one

theorem State.requestOf_placeRequest (s : State) (r q : Rail) : (s.placeRequest r).requestOf q = s.requestOf q := by
  unfold State.placeRequest
  split <;> rfl

/-- Every entry of the queue has the kind and the amount that its rail asks for. -/
def QueueAsks (s : State) : Prop := ∀ q ∈ s.budgetQueue, s.requestOf q.rail = some (q.kind, q.amount)

theorem queueAsks_reconcile (s : State) : QueueAsks s.reconcile := fun q hq => s.mem_reconcile q hq

theorem QueueAsks.placeRequest {s : State} (h : QueueAsks s) (r : Rail) : QueueAsks (s.placeRequest r) := by
  intro q hq
  rw [State.requestOf_placeRequest]
  unfold State.placeRequest at hq
  split at hq
  · next hnew =>
    rcases (mem_placeEntry _ q _).mp hq with rfl | hq
    · exact State.requestOf_of_newRequest hnew
    · exact h q hq
  · exact h q hq

/-- What holds of a state and is kept by the placing of each request holds once all are placed. -/
theorem State.placeRequests_induction {P : State → Prop} (h : ∀ t r, P t → P (State.placeRequest t r)) {s : State}
    (hs : P s) : P s.placeRequests := by
  have hfold : ∀ (rs : List Rail) (t : State), P t → P (rs.foldl State.placeRequest t) := by
    intro rs
    induction rs with
    | nil => exact fun _ ht => ht
    | cons a rs ih => exact fun t ht => ih _ (h t a ht)
  exact hfold allRails s hs

theorem QueueAsks.placeRequests {s : State} (h : QueueAsks s) : QueueAsks s.placeRequests :=
  State.placeRequests_induction (fun _ r h => h.placeRequest r) h

theorem moves_placeRequests (s : State) : Moves s s.placeRequests :=
  .foldl (fun t r => (Move.place t r).one) allRails s

theorem State.fits_zero (s : State) : s.fits 0 = true := s.fits_iff 0 |>.mpr (.inl rfl)

theorem moves_grantRound (before : State) (e : Event) : Moves e.st (grantRound before e).1.st := by
  have hrec : Moves e.st e.st.reconcile := (Move.reconcile e.st).one
  unfold grantRound
  dsimp only
  split
  · next r k hzero =>
    exact hrec.trans (moves_handGrant before (e := { e with st := e.st.reconcile })
      (State.requestOf_of_zeroRequest hzero) (State.fits_zero _))
  · have hplaced : Moves e.st e.st.reconcile.placeRequests := hrec.trans (moves_placeRequests e.st.reconcile)
    have hasks : QueueAsks e.st.reconcile.placeRequests := (queueAsks_reconcile e.st).placeRequests
    generalize e.st.reconcile.placeRequests = s2 at hplaced hasks
    split
    · exact hplaced
    · next q rest hq =>
      split
      · next hfits =>
        have hpop : Moves e.st { s2 with budgetQueue := rest } := hplaced.trans (Move.pop s2 q rest hq).one
        exact hpop.trans (moves_handGrant before (e := { e with st := { s2 with budgetQueue := rest } })
          (hasks q (hq ▸ List.mem_cons_self)) hfits)
      · exact hplaced

theorem moves_repeatRounds {round : Event → Event × Bool} (h : ∀ e, Moves e.st (round e).1.st) (n : Nat) (e : Event) :
    Moves e.st (repeatRounds round n e).st := by
  induction n generalizing e with
  | zero => exact .refl
  | succ n ih =>
    have hround := h e
    unfold repeatRounds
    split
    · next heq =>
      rw [heq] at hround
      exact hround.trans (ih _)
    · next heq =>
      rw [heq] at hround
      exact hround

theorem moves_arbitrate (before : State) (n : Nat) (e : Event) : Moves e.st (arbitrate before n e).st :=
  moves_repeatRounds (moves_grantRound before) n e

end Sys2Proof.Machine
end

/-! ### The elementary changes that a command is made of -/

section
namespace Sys2Proof.Machine

/-- The state that the rails and the arbiter of a part are in right after COMMIT has set them to their power-on values (R172). -/
def State.activated (s : State) : State :=
  { s with lifecycle := .committed, allocated := 0, budgetQueue := [] }.modRails fun _ => RailRuntime.activated

/-- One change that a command makes, with what it finds where it is made: a move of the rails and the arbiter, or one of the
command's own writes. -/
inductive Act : State → State → Prop where
  | move (s t : State) : Move s t → Act s t
  | beside (s t : State) :
      t =
        { s with
          pending := t.pending
          sessions := t.sessions
          links := t.links
          timestamp := t.timestamp
          resetn := t.resetn
          sense := t.sense } → Act s t
  | record (s : State) (r : Rail) (x : RailRecord) : s.lifecycle = .uncommitted →
      x.costs.length = x.levelCount.toNat → Act s (s.setRecord r x)
  | part (s : State) (p : PartRecord) : s.lifecycle = .uncommitted → Act s { s with part := p }
  | claim (s : State) (l : Link) (r : Rail) (v : Nat) : v ≤ (s.record r).levelCount.toNat →
      ((s.record r).defined = false → v = 0) → Act s (s.setClaim l r v)
  | pg (s : State) (r : Rail) (level : Line) : Act s (s.modRail r fun x => { x with pg := level })
  | on (s : State) (r : Rail) : (s.rail r).state = .ramping ∨ (s.rail r).state = .slewing → Act s (s.enterOn r)
  | finish (s : State) (r : Rail) : (s.rail r).state = .draining →
      Act s (s.modRail r fun x => { x with timer := .stopped, drainFinished := true })
  | fault (s : State) (r : Rail) (k : FaultKind) :
      (s.rail r).state.running = true ∨ (s.rail r).state = .draining → Act s (s.enterFault r k)
  | clear (s : State) (r : Rail) : (s.rail r).faultLatch = true →
      Act s (s.moveRail r fun y =>
        { y with faultLatch := false, level := 0, state := if y.target = 0 then .off else .waiting })
  | suspend (s : State) (b : Bool) : Act s (s.setSuspended b)
  | sides (s : State) (w u : Side) : Act s { s with supply := { s.supply with warnOut := w, critOut := u } }
  | supply (s : State) (st : SupplyState) (timer : Timer) :
      Act s { s with supply := { s.supply with state := st, holdoff := timer }, limit := s.part.limitIn st }
  | evaluate (s : State) (v : Nat) : s.lifecycle = .committed → Act s (evaluateSupply v s)
  | restart (s : State) : Act s s.restartRails
  | commit (s : State) (v : Nat) : s.lifecycle = .uncommitted → commitFault s = none →
      Act s (evaluateSupply v s.activated)
  | tick (s : State) : Act s s.tickTimers
  | powerOn (s : State) : Act s (powerOnReset s)

/-- The changes of a command, one after the other. -/
def Acts : State → State → Prop := Steps Act

theorem Acts.refl {s : State} : Acts s s := Steps.refl

theorem Acts.trans {s t u : State} (h : Acts s t) (h' : Acts t u) : Acts s u := Steps.trans h h'

theorem Act.one {s t : State} (h : Act s t) : Acts s t := Steps.single h

theorem Moves.acts {s t : State} (h : Moves s t) : Acts s t := Steps.mono Act.move h

/-- An invariant that every elementary change keeps holds after them. -/
theorem Acts.keep {I : State → Prop} (hI : ∀ s t, Act s t → I s → I t) {s t : State} (h : Acts s t) (hs : I s) : I t := by
  induction h with
  | refl => exact hs
  | tail _ hact ih => exact hI _ _ hact ih

theorem Acts.foldl {α : Type} {f : State → α → State} (h : ∀ s a, Acts s (f s a)) (xs : List α) (s : State) :
    Acts s (xs.foldl f s) := by
  induction xs generalizing s with
  | nil => exact .refl
  | cons a xs ih => exact (h s a).trans (ih _)

theorem Heard.acts {s t : State} (h : Heard s t) : Acts s t := (Act.beside s t (by rw [h.rest])).one

theorem acts_of_sessions {s t : State} (h : t = { s with sessions := t.sessions }) : Acts s t :=
  (Act.beside s t (by rw [h])).one

/-! ### Events -/

theorem acts_conclude (reserve : Option Link) (lead : List Announcement) (before : State) (e : Event) :
    Acts e.st (conclude reserve lead before e) :=
  (moves_arbitrate before _ { e with log := [] }).acts.trans (heard_deliver ..).acts

theorem acts_railTurn (reserve : Option Link) (lead log : List Announcement) (s : State) :
    Acts s (railTurn reserve lead ⟨s, log⟩) :=
  (moves_railEvent ⟨s, log⟩).acts.trans (acts_conclude reserve lead s (railEvent ⟨s, log⟩))

theorem acts_concludeGroup (e : Event) : Acts e.st (concludeGroup e) :=
  acts_conclude none e.log e.st { e with log := [] }

theorem State.state_moveRail_self (s : State) (r : Rail) (f : RailRuntime → RailRuntime) :
    ((s.moveRail r f).rail r).state = (f (s.rail r)).state := by
  rw [State.rail_moveRail]
  simp only [if_true]
  split <;> rfl

theorem State.state_enterOn (s : State) (r : Rail) : ((s.enterOn r).rail r).state = .on :=
  State.state_moveRail_self ..

theorem acts_reachOn {r : Rail} {s : State} (h : (s.rail r).state = .ramping ∨ (s.rail r).state = .slewing) :
    Acts s (reachOn r s) := by
  have hexamine := moves_examineTarget (r := r)
    (e := ⟨s.enterOn r, [.enteredOn r ((s.enterOn r).rail r).level]⟩) (s.state_enterOn r)
  exact ((Act.on s r h).one.trans hexamine.acts).trans (acts_railTurn none [] _ _)

theorem acts_fail {r : Rail} (k : FaultKind) {s : State}
    (h : (s.rail r).state.running = true ∨ (s.rail r).state = .draining) : Acts s (fail r k s) :=
  ((Act.fault s r k h).one.trans (moves_faultRail r k ⟨s, []⟩).acts).trans (acts_concludeGroup _)

theorem acts_rewriteClaim (reserve : Option Link) (l : Link) {r : Rail} {v : Nat} {s : State}
    (hv : v ≤ (s.record r).levelCount.toNat) (hd : (s.record r).defined = false → v = 0) :
    Acts s (rewriteClaim reserve l r v s) :=
  (Act.claim s l r v hv hd).one.trans (acts_railTurn reserve [] [] (s.setClaim l r v))

theorem acts_clearClaims (s : State) (l : Link) : Acts s (s.clearClaims l) :=
  .foldl (fun t r => (Act.claim t l r 0 (Nat.zero_le _) fun _ => rfl).one) _ s

theorem acts_teardown (l : Link) (st : SessionState) (s : State) : Acts s (teardown l st s) :=
  have hsession : Acts s (s.modSession l fun x => x.tornDown st) := acts_of_sessions rfl
  (hsession.trans (acts_clearClaims _ l)).trans
    (acts_railTurn none [] [] ((s.modSession l fun x => x.tornDown st).clearClaims l))

/-- The state and the announcements with which the rails find a change of the supply state. -/
def supplyChanged (st : SupplyState) (s : State) : Event :=
  let s1 : State :=
    { s with
      supply := { s.supply with state := st, holdoff := holdoffIn s.part st }
      limit := s.part.limitIn st }
  match suspensionAt s.supply.state st with
  | some b => ⟨s1.setSuspended b, .supplyChanged st :: suspensionLog s1 b⟩
  | none => ⟨s1, [.supplyChanged st]⟩

theorem changeSupply_eq (st : SupplyState) (s : State) :
    changeSupply st s = railTurn none (supplyChanged st s).log
      ⟨if st = .collapse then (supplyChanged st s).st.drainRunning .collapse else (supplyChanged st s).st, []⟩ := rfl

theorem acts_supplyChanged (st : SupplyState) (s : State) : Acts s (supplyChanged st s).st := by
  have hsupply := (Act.supply s st (holdoffIn s.part st)).one
  unfold supplyChanged
  generalize ({ s with
    supply := { s.supply with state := st, holdoff := holdoffIn s.part st }
    limit := s.part.limitIn st } : State) = s1 at hsupply ⊢
  cases suspensionAt s.supply.state st with
  | none => exact hsupply
  | some b =>
    have hflags : Acts s1 (s1.setSuspended b) := (Act.suspend s1 b).one
    dsimp only
    exact hsupply.trans hflags

theorem acts_changeSupply (st : SupplyState) (s : State) : Acts s (changeSupply st s) := by
  rw [changeSupply_eq]
  refine .trans (acts_supplyChanged st s) (.trans ?_ (acts_railTurn none (supplyChanged st s).log [] _))
  split
  · exact (moves_drainRunning (supplyChanged st s).st .collapse).acts
  · exact .refl

/-! ### Requests -/

theorem acts_respond (s : State) (l : Link) (tag : Byte) (st : Status) (data : List Byte) :
    Acts s (s.respond l tag st data) := (Act.beside _ _ rfl).one

theorem acts_renewLease (s : State) (l : Link) : Acts s (s.renewLease l) := by
  unfold State.renewLease
  split
  · exact acts_of_sessions rfl
  · exact .refl

/-- The common path of a request, where its own rules make elementary changes on the states that the lifecycle check lets pass. -/
theorem acts_serve {s : State} {k : Kind} {l : Link} {f : Frame} {body : State → Answer}
    (h : ∀ t : State, lifecycleRefusal k t.lifecycle = none → Acts t (body t).st) : Acts s (s.serve k l f body) := by
  unfold State.serve
  split
  · split
    · exact acts_respond ..
    · split
      · exact acts_respond ..
      · dsimp only
        split
        · exact (acts_renewLease s l).trans (acts_respond ..)
        · next hl => exact ((acts_renewLease s l).trans (h _ hl)).trans (acts_respond ..)
  · exact .refl

theorem acts_resolve (s : State) (l : Link) (r : Rail) (code : EventCode) (level : Nat) (d : Detail) :
    Acts s (s.resolve l r code level d) := by
  rcases s.resolve_cases l r code level d with ⟨-, he⟩ | ⟨o, -, he⟩
  · rw [he]
    exact .refl
  · rw [he]
    exact acts_of_sessions rfl

theorem acts_setUp (l : Link) (r : Rail) (o : Outstanding) (outcome : Option (EventCode × Nat × Detail)) (s : State) :
    Acts s (setUp l r o outcome s) := by
  unfold setUp
  dsimp only
  have hset : Acts s (s.setOutstanding l r (some o)) := acts_of_sessions rfl
  split
  · exact hset.trans (acts_resolve ..)
  · exact hset

theorem acts_closeOutstanding (l : Link) (r : Rail) (code : EventCode) (s : State) :
    Acts s (closeOutstanding l r code s) := acts_resolve ..

/-- Closing a completion leaves the table alone. -/
theorem record_closeOutstanding (l : Link) (r q : Rail) (code : EventCode) (s : State) :
    (closeOutstanding l r code s).record q = s.record q := by
  unfold closeOutstanding
  rcases s.resolve_cases l r code (s.rail r).level .absent with ⟨-, he⟩ | ⟨o, -, he⟩
  · rw [he]
  · rw [he]
    rfl

/-- A named rail is a defined one. -/
theorem State.defined_of_namedRail {s : State} {b : Byte} {r : Rail} (h : s.namedRail b = some r) :
    (s.record r).defined = true := ((s.namedRail_eq_some_iff b r).mp h).2

theorem acts_claimTaken {l : Link} {r : Rail} {level : Nat} (tag : Byte) {s : State}
    (hlevel : level ≤ (s.record r).levelCount.toNat) (hr : (s.record r).defined = true) :
    Acts s (claimTaken l r level tag s) := by
  unfold claimTaken
  dsimp only
  have hclose := acts_closeOutstanding l r .superseded s
  have hrecord := record_closeOutstanding l r r .superseded s
  generalize closeOutstanding l r .superseded s = s1 at hclose hrecord
  have hclaim : Acts s1 (rewriteClaim (some l) l r level s1) :=
    acts_rewriteClaim (some l) l (by rwa [hrecord]) (by rw [hrecord, hr]; nofun)
  exact (hclose.trans hclaim).trans (acts_setUp ..)

theorem acts_claimAnswer (l : Link) (f : Frame) (s : State) : Acts s (claimAnswer l f s).st := by
  unfold claimAnswer
  split
  · exact .refl
  · next r hr =>
    dsimp only
    split
    · exact .refl
    · next hlevel =>
      split
      · exact .refl
      · dsimp only
        exact acts_claimTaken f.tag (Nat.le_of_not_lt (not_or.mp hlevel).2) (State.defined_of_namedRail hr)

theorem acts_release (reserve : Option Link) (l : Link) (r : Rail) (s : State) : Acts s (rewriteClaim reserve l r 0 s) :=
  acts_rewriteClaim reserve l (Nat.zero_le _) fun _ => rfl

theorem acts_releaseNow (l : Link) (r : Rail) (s : State) : Acts s (releaseNow l r s) := by
  unfold releaseNow
  dsimp only
  split
  · exact (acts_closeOutstanding l r .cancelled s).trans (acts_release ..)
  · exact acts_release ..

theorem acts_releaseWaiting (l : Link) (r : Rail) (tag : Byte) (s : State) : Acts s (releaseWaiting l r tag s) := by
  unfold releaseWaiting
  dsimp only
  refine .trans ?_ (acts_setUp ..)
  exact (acts_closeOutstanding l r .superseded s).trans (acts_release ..)

theorem acts_releaseAnswer (l : Link) (f : Frame) (s : State) : Acts s (releaseAnswer l f s).st := by
  unfold releaseAnswer
  split
  · exact .refl
  · split
    · dsimp only
      exact acts_releaseNow ..
    · split
      · split
        · exact .refl
        · dsimp only
          exact acts_releaseWaiting ..
      · exact .refl

theorem acts_clearFaultTaken (l : Link) {r : Rail} {s : State} (h : (s.rail r).faultLatch = true) :
    Acts s (clearFaultTaken l r s) := by
  unfold clearFaultTaken
  dsimp only
  exact (Act.clear s r h).one.trans (acts_railTurn none [] _ _)

theorem acts_clearFaultAnswer (l : Link) (f : Frame) (s : State) : Acts s (clearFaultAnswer l f s).st := by
  unfold clearFaultAnswer
  split
  · exact .refl
  · dsimp only
    split
    · exact .refl
    · split
      · exact .refl
      · next hlatch =>
        split
        · exact .refl
        · dsimp only
          exact acts_clearFaultTaken l (by simpa using hlatch)

theorem acts_fetchAnswer (l : Link) (s : State) : Acts s (fetchAnswer l s).st := by
  unfold fetchAnswer
  dsimp only
  split <;> exact acts_of_sessions rfl

theorem acts_attachAnswer (l : Link) (f : Frame) (s : State) : Acts s (attachAnswer l f s).st := by
  unfold attachAnswer
  dsimp only
  split
  · exact .refl
  · exact acts_of_sessions rfl

theorem acts_modSession (s : State) (l : Link) (f : Session → Session) : Acts s (s.modSession l f) :=
  acts_of_sessions rfl

theorem acts_detachAnswer (l : Link) (s : State) : Acts s (detachAnswer l s).st := by
  unfold detachAnswer
  split <;> dsimp only
  · exact acts_teardown l .detached s
  · exact acts_modSession s l fun x => { x with state := .detached }

theorem acts_queryRailAnswer (l : Link) (f : Frame) (s : State) : Acts s (queryRailAnswer l f s).st := by
  unfold queryRailAnswer
  split <;> exact .refl

theorem acts_readRailAnswer (f : Frame) (s : State) : Acts s (readRailAnswer f s).st := by
  unfold readRailAnswer
  split <;> exact .refl

theorem acts_writeRailAnswer {f : Frame} {s : State} (h : s.lifecycle = .uncommitted) : Acts s (writeRailAnswer f s).st := by
  unfold writeRailAnswer
  split
  · split
    · next hlength =>
      refine (Act.record s _ _ h ?_).one
      rw [length_costs_parseRailRecord _ hlength, levelCount_parseRailRecord]
    · exact .refl
  · exact .refl

/-- The lifecycle check lets the writes and COMMIT pass in UNCOMMITTED alone (R164). -/
theorem uncommitted_of_lifecycleRefusal {k : Kind} {x : Lifecycle} (hk : k = .writeRail ∨ k = .writePart ∨ k = .commit)
    (h : lifecycleRefusal k x = none) : x = .uncommitted := by
  cases x with
  | uncommitted => rfl
  | committed => simp [lifecycleRefusal, hk] at h

theorem acts_commitAnswer (v : Nat) {s : State} (h : s.lifecycle = .uncommitted) : Acts s (commitAnswer v s).st := by
  unfold commitAnswer
  split
  · exact .refl
  · next hfault =>
    have hact : Acts s (evaluateSupply v s.activated) := (Act.commit s v h hfault).one
    dsimp only [commitTaken]
    change Acts s (if (evaluateSupply v s.activated).supply.state = .normal then _ else _)
    split
    · exact hact
    · exact hact.trans (heard_deliver none _ _).acts

/-! ### Every command -/

theorem acts_pgChange (r : Rail) (level : Line) (s : State) : Acts s (pgChange r level s) := by
  unfold pgChange
  have hpg : Acts s (s.modRail r fun x => { x with pg := level }) := (Act.pg s r level).one
  have hstate : ((s.modRail r fun x => { x with pg := level }).rail r).state = (s.rail r).state := by simp
  dsimp only
  split
  · exact .refl
  · split
    · split
      · exact hpg.trans (acts_reachOn (.inl (hstate.trans ‹_›)))
      · exact hpg.trans (acts_fail .pgLost (.inl (by rw [hstate, ‹(s.rail r).state = .on›]; rfl)))
      · exact hpg
    · exact hpg

theorem acts_rampExpiry (r : Rail) (s : State) : Acts s (rampExpiry r s) := by
  unfold rampExpiry
  split
  · next h =>
    split
    · exact acts_fail .rampTimeout (.inl (by rw [h.1]; rfl))
    · exact acts_reachOn (.inl h.1)
  · exact .refl

theorem acts_slewExpiry (r : Rail) (s : State) : Acts s (slewExpiry r s) := by
  unfold slewExpiry
  split
  · next h =>
    split
    · exact acts_fail .slewFail (.inl (by rw [h.1]; rfl))
    · exact acts_reachOn (.inr h.1)
  · exact .refl

theorem acts_drainExpiry (r : Rail) (s : State) : Acts s (drainExpiry r s) := by
  unfold drainExpiry
  split
  · next h =>
    split
    · exact acts_fail .drainStuck (.inr h.1)
    · exact (Act.finish s r h.1).one.trans
        (acts_railTurn none [] [] (s.modRail r fun x => { x with timer := .stopped, drainFinished := true }))
  · exact .refl

theorem acts_deferredOffTaken (r : Rail) (s : State) : Acts s (deferredOffTaken r s) := by
  unfold deferredOffTaken
  dsimp only
  split
  · next h =>
    obtain ⟨hs, hf, hd⟩ := h
    exact (Move.drained s r hs hf hd).one.acts.trans (acts_railTurn none [] [.enteredOff r] (s.finishDrain r))
  · exact .refl

theorem acts_grantHead (r : Rail) (k : GrantKind) (s : State) : Acts s (grantHead r k s) := by
  unfold grantHead
  split
  · next q rest hq =>
    split
    · next h =>
      obtain ⟨hr, hk, hfits⟩ := h
      have hreq : s.reconcile.requestOf r = some (k, q.amount) := by
        rw [← hr, ← hk]
        exact s.mem_reconcile q (hq ▸ List.mem_cons_self)
      have hpop : Moves s { s.reconcile with budgetQueue := rest } :=
        (Move.reconcile s).one.trans (Move.pop s.reconcile q rest hq).one
      exact ((hpop.trans (moves_handGrant s (e := ⟨{ s.reconcile with budgetQueue := rest }, []⟩) hreq hfits)).acts).trans
        (acts_concludeGroup _)
    · exact .refl
  · exact .refl

theorem acts_sides (s : State) (w u : Side) : Acts s { s with supply := { s.supply with warnOut := w, critOut := u } } :=
  (Act.sides s w u).one

theorem acts_fallBelowWarn (s : State) : Acts s (fallBelowWarn s) := by
  unfold fallBelowWarn
  split
  · have h := acts_sides s .below s.supply.critOut
    dsimp only
    split
    · exact h.trans (acts_changeSupply ..)
    · exact h.trans (acts_changeSupply ..)
    · exact h
    · exact h
  · exact .refl

theorem acts_fallBelowCrit (s : State) : Acts s (fallBelowCrit s) := by
  unfold fallBelowCrit
  split
  · have h := acts_sides s s.supply.warnOut .below
    dsimp only
    split
    · exact h.trans (acts_changeSupply ..)
    · exact h.trans (acts_changeSupply ..)
    · exact h.trans (acts_changeSupply ..)
    · exact h
  · exact .refl

theorem acts_riseAboveCritBand (s : State) : Acts s (riseAboveCritBand s) := by
  unfold riseAboveCritBand
  split
  · have h := acts_sides s s.supply.warnOut .above
    dsimp only
    split
    · exact h.trans (acts_changeSupply ..)
    · exact h
    · exact h
    · exact h
  · exact .refl

theorem acts_riseAboveWarnBand (s : State) : Acts s (riseAboveWarnBand s) := by
  unfold riseAboveWarnBand
  split
  · have h := acts_sides s .above s.supply.critOut
    dsimp only
    split
    · exact h.trans (acts_changeSupply ..)
    · exact h.trans (acts_changeSupply ..)
    · exact h
    · exact h
  · exact .refl

theorem acts_holdoffExpiry (s : State) : Acts s (holdoffExpiry s) := by
  unfold holdoffExpiry
  split
  · exact acts_changeSupply ..
  · exact .refl

theorem acts_linkReset (l : Link) (s : State) : Acts s (linkReset l s) := by
  unfold linkReset
  split
  · exact .refl
  · exact (Act.beside _ _ rfl).one.trans (acts_teardown ..)

theorem acts_linkResetRelease (l : Link) (s : State) : Acts s (linkResetRelease l s) := by
  unfold linkResetRelease
  split
  · exact .refl
  · exact (Act.beside _ _ rfl).one

theorem acts_csnFall (l : Link) (s : State) : Acts s (csnFall l s) := by
  unfold csnFall
  split
  · exact .refl
  · exact (Act.beside _ _ rfl).one

theorem acts_csnRise (l : Link) (s : State) : Acts s (csnRise l s) := by
  unfold csnRise
  split
  · exact .refl
  · exact (Act.beside _ _ rfl).one

theorem acts_responseEnd (l : Link) (s : State) : Acts s (responseEnd l s) := by
  unfold responseEnd
  split
  · exact (Act.beside _ _ rfl).one
  · exact .refl

theorem acts_forgetMasters (s : State) : Acts s s.forgetMasters := by
  refine .trans (Act.beside s { s with timestamp := 0, resetn := .low } rfl).one (Acts.foldl (fun t l => ?_) allLinks _)
  exact (Act.beside _ _ rfl).one

theorem acts_sense (s : State) (v : Nat) : Acts s { s with sense := v } := (Act.beside s { s with sense := v } rfl).one

theorem acts_restartSupply (v : Nat) (s : State) : Acts s (restartSupply v s) := by
  unfold restartSupply
  split
  · next h => exact (Act.evaluate s v h).one
  · exact acts_sense s v

theorem acts_warmReset (v : Nat) (s : State) : Acts s (warmReset v s) := by
  unfold warmReset
  split
  · exact acts_sense s v
  · have hrestart := (acts_forgetMasters s).trans (Act.restart s.forgetMasters).one
    have hsupply := hrestart.trans (acts_restartSupply v s.forgetMasters.restartRails)
    exact hsupply.trans (acts_railTurn none [] [] _)

theorem acts_timestamp (s : State) (n : BitVec 16) : Acts s { s with timestamp := n } :=
  (Act.beside s { s with timestamp := n } rfl).one

/-- A tick runs the timers and raises the counter. -/
theorem acts_timestampTick (s : State) : Acts s { s.tickTimers with timestamp := s.timestamp + 1 } :=
  (Act.tick s).one.trans (acts_timestamp s.tickTimers _)

/-- Every command is made of the elementary changes. -/
theorem exec_acts (c : Instr) (s : State) : ∃ t, exec c s = .next t ∧ Acts s t := by
  cases c with
  | attach l f => exact ⟨_, rfl, acts_serve fun t _ => acts_attachAnswer l f t⟩
  | detach l f => exact ⟨_, rfl, acts_serve fun t _ => acts_detachAnswer l t⟩
  | renew l f => exact ⟨_, rfl, acts_serve fun _ _ => .refl⟩
  | claim l f => exact ⟨_, rfl, acts_serve fun t _ => acts_claimAnswer l f t⟩
  | releaseWithoutWait l f => exact ⟨_, rfl, acts_serve fun t _ => acts_releaseAnswer l f t⟩
  | releaseWithWait l f => exact ⟨_, rfl, acts_serve fun t _ => acts_releaseAnswer l f t⟩
  | clearFault l f => exact ⟨_, rfl, acts_serve fun t _ => acts_clearFaultAnswer l f t⟩
  | fetchEvent l f => exact ⟨_, rfl, acts_serve fun t _ => acts_fetchAnswer l t⟩
  | queryRail l f => exact ⟨_, rfl, acts_serve fun t _ => acts_queryRailAnswer l f t⟩
  | queryPart l f => exact ⟨_, rfl, acts_serve fun _ _ => .refl⟩
  | writeRail l f =>
    exact ⟨_, rfl, acts_serve fun t h => acts_writeRailAnswer (uncommitted_of_lifecycleRefusal (.inl rfl) h)⟩
  | writePart l f =>
    exact ⟨_, rfl, acts_serve fun t h => (Act.part t _ (uncommitted_of_lifecycleRefusal (.inr (.inl rfl)) h)).one⟩
  | readRail l f => exact ⟨_, rfl, acts_serve fun t _ => acts_readRailAnswer f t⟩
  | readPart l f => exact ⟨_, rfl, acts_serve fun _ _ => .refl⟩
  | commit l f v =>
    exact ⟨_, rfl, (acts_sense s v).trans
      (acts_serve fun t h => acts_commitAnswer v (uncommitted_of_lifecycleRefusal (.inr (.inr rfl)) h))⟩
  | frameDiscard l => exact ⟨_, rfl, acts_csnRise l s⟩
  | pgChangeTaken r level => exact ⟨_, rfl, acts_pgChange r level s⟩
  | rampTimeExpiry r => exact ⟨_, rfl, acts_rampExpiry r s⟩
  | slewTimeExpiry r => exact ⟨_, rfl, acts_slewExpiry r s⟩
  | drainTimeExpiry r => exact ⟨_, rfl, acts_drainExpiry r s⟩
  | deferredOff r => exact ⟨_, rfl, acts_deferredOffTaken r s⟩
  | startGrant r => exact ⟨_, rfl, acts_grantHead r .start s⟩
  | raiseGrant r => exact ⟨_, rfl, acts_grantHead r .raise s⟩
  | holdoffExpiry => exact ⟨_, rfl, acts_holdoffExpiry s⟩
  | leaseExpiry l =>
    refine ⟨_, rfl, ?_⟩
    split
    · exact acts_teardown l .expired s
    · exact .refl
  | fallBelowWarn v =>
    exact ⟨_, rfl, (acts_sense s v).trans (acts_fallBelowWarn { s with sense := v })⟩
  | fallBelowCrit v =>
    exact ⟨_, rfl, (acts_sense s v).trans (acts_fallBelowCrit { s with sense := v })⟩
  | riseAboveCritBand v =>
    exact ⟨_, rfl, (acts_sense s v).trans (acts_riseAboveCritBand { s with sense := v })⟩
  | riseAboveWarnBand v =>
    exact ⟨_, rfl, (acts_sense s v).trans (acts_riseAboveWarnBand { s with sense := v })⟩
  | linkReset l => exact ⟨_, rfl, acts_linkReset l s⟩
  | linkResetRelease l => exact ⟨_, rfl, acts_linkResetRelease l s⟩
  | warmReset v => exact ⟨_, rfl, acts_warmReset v s⟩
  | warmResetRelease => exact ⟨_, rfl, (Act.beside _ _ rfl).one⟩
  | powerOnReset => exact ⟨_, rfl, (Act.powerOn s).one⟩
  | timestampTick => exact ⟨_, rfl, acts_timestampTick s⟩
  | csnFall l => exact ⟨_, rfl, acts_csnFall l s⟩
  | responseEnd l => exact ⟨_, rfl, acts_responseEnd l s⟩
  | csnRise l => exact ⟨_, rfl, acts_csnRise l s⟩

theorem acts_of_exec {c : Instr} {s t : State} (h : exec c s = .next t) : Acts s t := by
  obtain ⟨u, hu, hacts⟩ := exec_acts c s
  cases hu.symm.trans h
  exact hacts

/-- A step is made of the elementary changes. -/
theorem acts_of_step {s t : State} (h : step s = .next t) : Acts s t := by
  unfold step at h
  split at h
  · cases h
    exact .refl
  · next c rest _ =>
    exact (Act.beside s { s with pending := rest } rfl).one.trans (acts_of_exec h)

end Sys2Proof.Machine
end

/-! ### The record of a rail after each of its moves (R19, R20, R26 to R48) -/

section
namespace Sys2Proof.Machine

/-- `y` is `x` but for its hold set. -/
def SameButHolds (x y : RailRuntime) : Prop := y = { x with holdSet := y.holdSet }

theorem SameButHolds.refl (x : RailRuntime) : SameButHolds x x := rfl

theorem SameButHolds.trans {x y z : RailRuntime} (h : SameButHolds x y) (h' : SameButHolds y z) : SameButHolds x z := by
  unfold SameButHolds at *
  rw [h', h]

/-- A record in WAITING. -/
def RailRuntime.toWaiting (r : Rail) (x : RailRuntime) : RailRuntime := driveLines r { x with state := .waiting, level := 0 }

/-- A record in OFF that has left WAITING. -/
def RailRuntime.toOff (r : Rail) (x : RailRuntime) : RailRuntime := driveLines r { x with state := .off, level := 0 }

/-- A record in RAMPING for `time` ms. -/
def RailRuntime.toRamping (r : Rail) (time : Nat) (x : RailRuntime) : RailRuntime :=
  driveLines r { x with state := .ramping, level := x.target, timer := .running time }

/-- A record in SLEWING for `time` ms. -/
def RailRuntime.toSlewing (r : Rail) (time : Nat) (x : RailRuntime) : RailRuntime :=
  driveLines r { x with state := .slewing, slewOrigin := some x.level, level := x.target, timer := .running time }

/-- The budget that a record holds once a slew has ended: no more than the cost of its level (R40, R41). -/
def RailRuntime.trimmed (rec : RailRecord) (x : RailRuntime) : Nat :=
  if x.state = .slewing then min x.held (rec.costOf x.level) else x.held

/-- A record in DRAINING. -/
def RailRuntime.toDraining (r : Rail) (rec : RailRecord) (c : DrainCause) (x : RailRuntime) : RailRuntime :=
  driveLines r
    { x with
      state := .draining
      timer := .running rec.drainTime.toNat
      drainCause := c
      drainFinished := false
      slewOrigin := none
      held := x.trimmed rec }

/-- A record in ON again, its slew down called back. -/
def RailRuntime.calledBack (r : Rail) (level : Nat) (x : RailRuntime) : RailRuntime :=
  driveLines r { x with state := .on, level := level, timer := .stopped, slewOrigin := none }

/-- A record in ON. -/
def RailRuntime.toOn (r : Rail) (rec : RailRecord) (x : RailRuntime) : RailRuntime :=
  driveLines r { x with state := .on, timer := .stopped, slewOrigin := none, held := x.trimmed rec }

/-- A record that has ended its drain. -/
def RailRuntime.toDrained (r : Rail) (x : RailRuntime) : RailRuntime :=
  driveLines r
    { x with
      state := if x.target = 0 then .off else .waiting
      level := 0
      timer := .stopped
      drainFinished := false
      held := 0 }

/-- A record in FAULT. -/
def RailRuntime.toFault (r : Rail) (k : FaultKind) (x : RailRuntime) : RailRuntime :=
  driveLines r
    { x with
      state := .fault
      level := 0
      timer := .stopped
      slewOrigin := none
      drainFinished := false
      faultLatch := true
      faultKind := some k
      faultCount := min (x.faultCount + 1) Config.faultCountMax
      held := 0 }

/-- A record whose fault has been cleared. -/
def RailRuntime.toCleared (r : Rail) (x : RailRuntime) : RailRuntime :=
  driveLines r { x with faultLatch := false, level := 0, state := if x.target = 0 then .off else .waiting }

/-- A record in OFF after a warm reset. -/
def RailRuntime.toRestarted (r : Rail) (x : RailRuntime) : RailRuntime :=
  driveLines r { x with state := .off, level := 0, target := 0, timer := .stopped, held := 0 }

/-- From `s` to `t` rail `r` has the record `y`, and every other rail the one it had, but for the hold sets. -/
def Becomes (s t : State) (r : Rail) (y : RailRuntime) : Prop :=
  ∀ q : Rail, SameButHolds (if q = r then y else s.rail q) (t.rail q)

section
variable {s t u : State} {r : Rail} {x y : RailRuntime}

theorem Becomes.self (h : Becomes s t r y) : SameButHolds y (t.rail r) := by
  have h := h r
  rwa [if_pos rfl] at h

theorem Becomes.other (h : Becomes s t r y) {q : Rail} (hq : q ≠ r) : SameButHolds (s.rail q) (t.rail q) := by
  have h := h q
  rwa [if_neg hq] at h

/-- Two moves of one rail, where the second makes the same record of any hold set. -/
theorem Becomes.trans {g : RailRuntime → RailRuntime} (h : Becomes s t r x) (h' : Becomes t u r (g (t.rail r)))
    (hg : ∀ (z : RailRuntime) (hs : Vector Bool 16), g { z with holdSet := hs } = { g z with holdSet := hs }) :
    Becomes s u r (g x) := fun q => by
  by_cases hq : q = r
  · subst hq
    rw [if_pos rfl]
    have hx : g (t.rail q) = { g x with holdSet := (t.rail q).holdSet } := by
      rw [h.self, hg]
    have hu := h'.self
    rw [hx] at hu
    exact hu
  · rw [if_neg hq]
    exact (h.other hq).trans (h'.other hq)

/-- A predicate on records that does not look at the hold set holds after a move where it holds of the new record. -/
theorem Becomes.forall_rail {P : Rail → RailRuntime → Prop}
    (hP : ∀ (r : Rail) (x : RailRuntime) (hs : Vector Bool 16), P r x → P r { x with holdSet := hs })
    (h : Becomes s t r y) (hs : ∀ q, P q (s.rail q)) (hy : P r y) (q : Rail) : P q (t.rail q) := by
  rw [h q]
  refine hP q _ _ ?_
  split
  · next hq => rwa [hq]
  · exact hs q

end

theorem becomes_modRail (s : State) (r : Rail) (f : RailRuntime → RailRuntime) :
    Becomes s (s.modRail r f) r (f (s.rail r)) := fun q => by
  rw [State.rail_modRail]
  exact .refl _

theorem becomes_moveRail (s : State) (r : Rail) (f : RailRuntime → RailRuntime) :
    Becomes s (s.moveRail r f) r (driveLines r (f (s.rail r))) := fun q => by
  rw [State.rail_moveRail]
  dsimp only
  by_cases hparent : q ∈ s.parentsOf r
  · rw [if_pos hparent]
    rfl
  · rw [if_neg hparent]
    rfl

/-- A move made from a state that differs in the record of the one rail. -/
theorem becomes_moveRail_of {s t : State} {r : Rail} {x : RailRuntime} (f : RailRuntime → RailRuntime)
    (hr : t.rail r = x) (hq : ∀ q, q ≠ r → t.rail q = s.rail q) :
    Becomes s (t.moveRail r f) r (driveLines r (f x)) := fun q => by
  have h := becomes_moveRail t r f q
  rw [hr] at h
  by_cases hqr : q = r
  · rw [if_pos hqr] at h ⊢
    exact h
  · rw [if_neg hqr] at h ⊢
    rwa [hq q hqr] at h

theorem State.rail_giveBack_self (s : State) (r : Rail) (n : Nat) :
    (s.giveBack r n).rail r = { s.rail r with held := min (s.rail r).held n } :=
  (s.rail_giveBack r r n).trans (if_pos rfl)

theorem State.rail_giveBack_other (s : State) (r : Rail) (n : Nat) (q : Rail) (hq : q ≠ r) :
    (s.giveBack r n).rail q = s.rail q := (s.rail_giveBack r q n).trans (if_neg hq)

theorem becomes_enterWaiting (s : State) (r : Rail) : Becomes s (s.enterWaiting r) r ((s.rail r).toWaiting r) :=
  becomes_moveRail s r _

theorem becomes_leaveWaiting (s : State) (r : Rail) : Becomes s (s.leaveWaiting r) r ((s.rail r).toOff r) :=
  becomes_moveRail (s.withdraw r) r _

theorem becomes_enterRamping (s : State) (r : Rail) :
    Becomes s (s.enterRamping r) r ((s.rail r).toRamping r (s.record r).rampTime.toNat) := becomes_moveRail s r _

theorem becomes_enterSlewing (s : State) (r : Rail) :
    Becomes s (s.enterSlewing r) r ((s.rail r).toSlewing r (s.record r).slewTime.toNat) :=
  becomes_moveRail (s.withdraw r) r _

theorem becomes_enterDraining (s : State) (r : Rail) (c : DrainCause) :
    Becomes s (s.enterDraining r c) r ((s.rail r).toDraining r (s.record r) c) := by
  unfold State.enterDraining RailRuntime.toDraining RailRuntime.trimmed
  dsimp only
  split
  · next h =>
    exact becomes_moveRail_of _ (State.rail_giveBack_self (s.withdraw r) r _)
      (State.rail_giveBack_other (s.withdraw r) r _)
  · next h => exact becomes_moveRail (s.withdraw r) r _

theorem becomes_callBackSlew (s : State) (r : Rail) (level : Nat) :
    Becomes s (s.callBackSlew r level) r ((s.rail r).calledBack r level) := becomes_moveRail s r _

theorem becomes_enterOn (s : State) (r : Rail) : Becomes s (s.enterOn r) r ((s.rail r).toOn r (s.record r)) := by
  unfold State.enterOn RailRuntime.toOn RailRuntime.trimmed
  dsimp only
  split
  · next h => exact becomes_moveRail_of _ (s.rail_giveBack_self r _) (s.rail_giveBack_other r _)
  · next h => exact becomes_moveRail s r _

theorem becomes_finishDrain (s : State) (r : Rail) : Becomes s (s.finishDrain r) r ((s.rail r).toDrained r) := by
  have h := becomes_moveRail_of (s := s)
    (fun x => { x with
      state := if x.target = 0 then .off else .waiting, level := 0, timer := .stopped, drainFinished := false })
    (s.rail_giveBack_self r 0) (s.rail_giveBack_other r 0)
  rw [Nat.min_zero] at h
  exact h

theorem becomes_enterFault (s : State) (r : Rail) (k : FaultKind) :
    Becomes s (s.enterFault r k) r ((s.rail r).toFault r k) := by
  have h := becomes_moveRail_of (s := s) (t := (s.withdraw r).giveBack r 0)
    (fun x => { x with
      state := .fault, level := 0, timer := .stopped, slewOrigin := none, drainFinished := false, faultLatch := true
      faultKind := some k, faultCount := min (x.faultCount + 1) Config.faultCountMax })
    (State.rail_giveBack_self (s.withdraw r) r 0) (State.rail_giveBack_other (s.withdraw r) r 0)
  rw [Nat.min_zero] at h
  exact h

theorem State.rail_takeBudget_self (s : State) (r : Rail) (n : Nat) :
    (s.takeBudget r n).rail r = { s.rail r with held := (s.rail r).held + n } :=
  (s.rail_takeBudget r r n).trans (if_pos rfl)

theorem State.rail_takeBudget_other (s : State) (r : Rail) (n : Nat) {q : Rail} (hq : q ≠ r) :
    (s.takeBudget r n).rail q = s.rail q := (s.rail_takeBudget r q n).trans (if_neg hq)

/-- What a rail becomes after it has taken budget, seen from before. -/
theorem Becomes.of_takeBudget {s t : State} {r : Rail} {n : Nat} {y : RailRuntime} (h : Becomes (s.takeBudget r n) t r y) :
    Becomes s t r y := fun q => by
  have h := h q
  by_cases hq : q = r
  · rwa [if_pos hq] at h ⊢
  · rw [if_neg hq] at h ⊢
    rwa [s.rail_takeBudget_other r n hq] at h

/-- A START granted, seen from before the budget was taken. -/
theorem becomes_start (s : State) (r : Rail) (n : Nat) :
    Becomes s ((s.takeBudget r n).enterRamping r) r
      (({ s.rail r with held := (s.rail r).held + n } : RailRuntime).toRamping r (s.record r).rampTime.toNat) := by
  rw [← s.rail_takeBudget_self r n]
  exact (becomes_enterRamping (s.takeBudget r n) r).of_takeBudget

/-- A START granted that finds BACKFEED, seen from before the budget was taken. -/
theorem becomes_backfeed (s : State) (r : Rail) (n : Nat) (k : FaultKind) :
    Becomes s ((s.takeBudget r n).enterFault r k) r ((s.rail r).toFault r k) := by
  have h := (becomes_enterFault (s.takeBudget r n) r k).of_takeBudget
  rw [s.rail_takeBudget_self r n] at h
  exact h

/-- A RAISE granted, seen from before the budget was taken. -/
theorem becomes_raise (s : State) (r : Rail) (n : Nat) :
    Becomes s ((s.takeBudget r n).enterSlewing r) r
      (({ s.rail r with held := (s.rail r).held + n } : RailRuntime).toSlewing r (s.record r).slewTime.toNat) := by
  rw [← s.rail_takeBudget_self r n]
  exact (becomes_enterSlewing (s.takeBudget r n) r).of_takeBudget

/-- A whole fall taken by a rail that had begun a slew down: it drains from the level it stood at. -/
theorem becomes_wholeFall (s : State) (r : Rail) (level : Nat) :
    Becomes s ((s.callBackSlew r level).enterDraining r .normal) r
      (((s.rail r).calledBack r level).toDraining r (s.record r) .normal) := by
  have hrecord : (s.callBackSlew r level).record r = s.record r := (onlyRails_callBackSlew s r level).record r
  have h := becomes_enterDraining (s.callBackSlew r level) r .normal
  rw [hrecord] at h
  exact (becomes_callBackSlew s r level).trans (g := RailRuntime.toDraining r (s.record r) .normal) h fun _ _ => rfl

/-! ### Writes that leave the runtime records as they are -/

theorem State.rail_reconcile (s : State) (q : Rail) : s.reconcile.rail q = s.rail q := rfl

theorem State.rail_placeRequest (s : State) (r q : Rail) : (s.placeRequest r).rail q = s.rail q := by
  unfold State.rail
  rw [(s.placeRequest_rails r).1]

/-- What one move makes of the runtime records: one of them becomes another, or all stay. -/
inductive RailMove (s : State) : State → Prop where
  | same (t : State) : (∀ q, t.rail q = s.rail q) → RailMove s t
  | target (t : State) (r : Rail) : Becomes s t r { s.rail r with target := s.targetFor r } → RailMove s t
  | wait (t : State) (r : Rail) : (s.rail r).state = .off → (s.rail r).target ≠ 0 →
      Becomes s t r ((s.rail r).toWaiting r) → RailMove s t
  | unwait (t : State) (r : Rail) : (s.rail r).state = .waiting → (s.rail r).target = 0 →
      Becomes s t r ((s.rail r).toOff r) → RailMove s t
  | drain (t : State) (r : Rail) (c : DrainCause) : (s.rail r).state.running = true →
      Becomes s t r ((s.rail r).toDraining r (s.record r) c) → RailMove s t
  | slewDown (t : State) (r : Rail) : (s.rail r).state = .on → (s.rail r).target ≠ 0 →
      (s.rail r).target < (s.rail r).level →
      Becomes s t r ((s.rail r).toSlewing r (s.record r).slewTime.toNat) → RailMove s t
  | drained (t : State) (r : Rail) : (s.rail r).state = .draining → (s.rail r).drainFinished = true →
      s.heldByDraining r = false → Becomes s t r ((s.rail r).toDrained r) → RailMove s t
  | start (t : State) (r : Rail) (n : Nat) : s.requestOf r = some (.start, n) → s.fits n = true →
      Becomes s t r
        (({ s.rail r with held := (s.rail r).held + n } : RailRuntime).toRamping r (s.record r).rampTime.toNat) →
      RailMove s t
  | backfeed (t : State) (r : Rail) (n : Nat) : s.requestOf r = some (.start, n) → s.monitored r = true →
      (s.rail r).pg = .high → Becomes s t r ((s.rail r).toFault r .backfeed) → RailMove s t
  | raise (t : State) (r : Rail) (n : Nat) : s.requestOf r = some (.raise, n) → s.fits n = true →
      Becomes s t r
        (({ s.rail r with held := (s.rail r).held + n } : RailRuntime).toSlewing r (s.record r).slewTime.toNat) →
      RailMove s t
  | wholeFall (t : State) (r : Rail) (level : Nat) : (s.rail r).state = .slewing → (s.rail r).target = 0 →
      Becomes s t r (((s.rail r).calledBack r level).toDraining r (s.record r) .normal) → RailMove s t

theorem Move.railMove {s t : State} (h : Move s t) : RailMove s t := by
  cases h with
  | target r => exact .target _ r (becomes_modRail s r fun y => { y with target := s.targetFor r })
  | wait r hs ht => exact .wait _ r hs ht (becomes_enterWaiting s r)
  | unwait r hs ht => exact .unwait _ r hs ht (becomes_leaveWaiting s r)
  | drain r c hs => exact .drain _ r c hs (becomes_enterDraining s r c)
  | slewDown r hs ht hl => exact .slewDown _ r hs ht hl (becomes_enterSlewing s r)
  | drained r hs hf hd => exact .drained _ r hs hf hd (becomes_finishDrain s r)
  | start r n hreq hfits => exact .start _ r n hreq hfits (becomes_start s r n)
  | backfeed r n hreq _ hm hpg => exact .backfeed _ r n hreq hm hpg (becomes_backfeed s r n .backfeed)
  | raise r n hreq hfits => exact .raise _ r n hreq hfits (becomes_raise s r n)
  | wholeFall r level hs ht => exact .wholeFall _ r level hs ht (becomes_wholeFall s r level)
  | reconcile => exact .same _ s.rail_reconcile
  | place r => exact .same _ (s.rail_placeRequest r)
  | pop => exact .same _ fun _ => rfl

/-! ### What a request says of its rail (R76) -/

theorem State.requestOf_eq_start_iff (s : State) (r : Rail) (n : Nat) :
    s.requestOf r = some (.start, n) ↔ s.ready r = true ∧ n = (s.record r).costOf (s.rail r).target := by
  unfold State.requestOf
  dsimp only
  split
  · next h => simp [h, eq_comm]
  · next h =>
    split <;> simp [h]

theorem State.requestOf_eq_raise_iff (s : State) (r : Rail) (n : Nat) :
    s.requestOf r = some (.raise, n) ↔
      (s.rail r).state = .on ∧ (s.rail r).level < (s.rail r).target
        ∧ n = (s.record r).costOf (s.rail r).target - (s.record r).costOf (s.rail r).level := by
  unfold State.requestOf
  dsimp only
  split
  · next h =>
    obtain ⟨hw, -, -⟩ := (s.ready_iff r).mp h
    simp [hw]
  · split
    · next h => simp [h, eq_comm]
    · next h =>
      constructor
      · nofun
      · rintro ⟨hs, hl, -⟩
        exact absurd ⟨hs, hl⟩ h

theorem State.waiting_of_start {s : State} {r : Rail} {n : Nat} (h : s.requestOf r = some (.start, n)) :
    (s.rail r).state = .waiting := ((s.ready_iff r).mp ((s.requestOf_eq_start_iff r n).mp h).1).1

theorem State.on_of_raise {s : State} {r : Rail} {n : Nat} (h : s.requestOf r = some (.raise, n)) :
    (s.rail r).state = .on := ((s.requestOf_eq_raise_iff r n).mp h).1

end Sys2Proof.Machine
end

/-! ### The writes of the resets, of COMMIT and of the tick (R50, R158, R172, R174) -/

section
namespace Sys2Proof.Machine

/-- A write to every link. -/
theorem State.link_foldl_modLink (f : Link → LinkPort → LinkPort) {ls : List Link} (hn : ls.Nodup) (s : State) (m : Link) :
    (ls.foldl (fun t l => t.modLink l (f l)) s).link m = if m ∈ ls then f m (s.link m) else s.link m := by
  induction ls generalizing s with
  | nil => simp
  | cons a ls ih =>
    obtain ⟨ha, hn⟩ := List.nodup_cons.mp hn
    rw [List.foldl_cons, ih hn, State.link_modLink]
    by_cases hm : m = a
    · subst hm
      simp [ha]
    · simp [hm]

theorem State.foldl_modLink_rest (f : Link → LinkPort → LinkPort) (ls : List Link) (s : State) :
    ls.foldl (fun t l => t.modLink l (f l)) s =
      { s with links := (ls.foldl (fun t l => t.modLink l (f l)) s).links } := by
  induction ls generalizing s with
  | nil => rfl
  | cons a ls ih =>
    rw [List.foldl_cons, ih]
    rfl

theorem State.link_reset (l : Link) : State.reset.link l = .powerOn := by
  revert l
  decide

theorem State.rail_reset (r : Rail) : State.reset.rail r = .powerOn := by
  revert r
  decide

theorem State.session_reset (l : Link) : State.reset.session l = .powerOn := by
  revert l
  decide

theorem State.record_reset (r : Rail) : State.reset.record r = .powerOn := by
  revert r
  decide

/-- Power-on reset, each block in one write (R174). -/
theorem powerOnReset_eq (s : State) :
    powerOnReset s =
      { State.reset with
        pending := s.pending
        resetn := s.resetn
        sense := s.sense
        links := s.links.map fun x => { x with receiver := .idle } } := by
  have hlinks : (powerOnReset s).links = s.links.map fun x => { x with receiver := .idle } :=
    vector_eq_of_get fun l => by
      have h := State.link_foldl_modLink
        (fun l x => { x with csn := (s.link l).csn, lrstn := (s.link l).lrstn }) nodup_allLinks
        { State.reset with pending := s.pending, resetn := s.resetn, sense := s.sense } l
      rw [if_pos (mem_allLinks l)] at h
      refine (h : (powerOnReset s).link l = _).trans ?_
      rw [get_map]
      have hidle : (State.reset.link l).receiver = .idle := by rw [State.link_reset]; rfl
      exact congrArg (fun rx => ({ s.link l with receiver := rx } : LinkPort)) hidle
  have h := State.foldl_modLink_rest
    (fun l x => { x with csn := (s.link l).csn, lrstn := (s.link l).lrstn }) allLinks
    { State.reset with pending := s.pending, resetn := s.resetn, sense := s.sense }
  rw [← hlinks]
  exact h

theorem rail_powerOnReset (s : State) (r : Rail) : (powerOnReset s).rail r = .powerOn := by
  rw [powerOnReset_eq]
  exact State.rail_reset r

/-- Settles O54. -/
theorem powerOnResetRestoresReset : Obligations.PowerOnResetRestoresReset := fun s =>
  congrArg Host.Outcome.next (powerOnReset_eq s)

/-- A write to every session. -/
theorem State.session_foldl_modSession (f : Session → Session) {ls : List Link} (hn : ls.Nodup) (s : State) (m : Link) :
    (ls.foldl (fun t l => t.modSession l f) s).session m = if m ∈ ls then f (s.session m) else s.session m := by
  induction ls generalizing s with
  | nil => simp
  | cons a ls ih =>
    obtain ⟨ha, hn⟩ := List.nodup_cons.mp hn
    rw [List.foldl_cons, ih hn, State.session_modSession]
    by_cases hm : m = a
    · subst hm
      simp [ha]
    · simp [hm]

theorem State.foldl_modSession_rest (f : Session → Session) (ls : List Link) (s : State) :
    ls.foldl (fun t l => t.modSession l f) s =
      { s with sessions := (ls.foldl (fun t l => t.modSession l f) s).sessions } := by
  induction ls generalizing s with
  | nil => rfl
  | cons a ls ih =>
    rw [List.foldl_cons, ih]
    rfl

/-- A write to every session is a map over their records. -/
theorem State.foldl_modSession_eq (f : Session → Session) (s : State) :
    allLinks.foldl (fun t l => t.modSession l f) s = { s with sessions := s.sessions.map f } := by
  rw [State.foldl_modSession_rest]
  have hsessions : (allLinks.foldl (fun t l => t.modSession l f) s).sessions = s.sessions.map f :=
    vector_eq_of_get fun l => by
      have h := State.session_foldl_modSession f nodup_allLinks s l
      rw [if_pos (mem_allLinks l)] at h
      rw [get_map]
      exact h
  rw [hsessions]

/-- The timers a tick runs, each bank in one write. -/
theorem State.tickTimers_eq (s : State) :
    s.tickTimers =
      { s with
        rails := s.rails.map fun x => { x with timer := x.timer.tick }
        sessions := s.sessions.map fun x => { x with leaseTimer := x.leaseTimer.tick }
        supply := { s.supply with holdoff := s.supply.holdoff.tick } } := by
  have hrails : (Vector.ofFn fun r => { s.rail r with timer := (s.rail r).timer.tick }) =
      s.rails.map fun x : RailRuntime => { x with timer := x.timer.tick } :=
    vector_eq_of_get fun r => by
      rw [get_ofFn, get_map]
      rfl
  unfold State.tickTimers
  dsimp only
  rw [State.modRails_eq, State.foldl_modSession_eq, hrails]

theorem State.rail_tickTimers (s : State) (r : Rail) :
    s.tickTimers.rail r = { s.rail r with timer := (s.rail r).timer.tick } := by
  rw [State.tickTimers_eq]
  exact get_map ..

/-- The suspended flag that an evaluation of SENSE leaves a rail with (R126). -/
def State.flagEvaluated (s : State) (v : Nat) (r : Rail) : Bool :=
  if s.part.evaluated v = .low ∧ (s.record r).defined = true ∧ (s.record r).shedClass = .shed then true
  else (s.rail r).suspended

/-- The supply monitor as an evaluation of SENSE leaves it (R126). -/
def PartRecord.supplyAt (p : PartRecord) (v : Nat) : SupplyMonitor where
  active := true
  state := p.evaluated v
  warnOut := if v < p.warn then .below else .above
  critOut := if v < p.crit then .below else .above
  holdoff := .stopped

/-- The state with the supply monitor and the limit as an evaluation of SENSE leaves them. -/
def State.withSupplyAt (s : State) (v : Nat) : State :=
  { s with supply := s.part.supplyAt v, limit := s.part.limitIn (s.part.evaluated v), sense := v }

theorem evaluateSupply_cases (v : Nat) (s : State) :
    evaluateSupply v s =
      if s.part.evaluated v = .low then (s.withSupplyAt v).setSuspended true else s.withSupplyAt v := rfl

theorem rail_evaluateSupply (v : Nat) (s : State) (r : Rail) :
    (evaluateSupply v s).rail r = { s.rail r with suspended := s.flagEvaluated v r } := by
  have hrecord : (s.withSupplyAt v).record r = s.record r := rfl
  have hrail : (s.withSupplyAt v).rail r = s.rail r := rfl
  rw [evaluateSupply_cases]
  unfold State.flagEvaluated
  by_cases hlow : s.part.evaluated v = .low
  · rw [if_pos hlow, State.rail_setSuspended, hrecord, hrail]
    by_cases hshed : (s.record r).defined = true ∧ (s.record r).shedClass = .shed
    · rw [if_pos hshed, if_pos ⟨hlow, hshed⟩]
    · rw [if_neg hshed, if_neg fun h => hshed h.2]
  · rw [if_neg hlow, if_neg fun h => hlow h.1, hrail]

theorem setSuspended_allocated (s : State) (b : Bool) : (s.setSuspended b).allocated = s.allocated := by
  have h : ∀ (rs : List Rail) (t : State),
      (rs.foldl (fun t r =>
          if (t.record r).defined ∧ (t.record r).shedClass = .shed then t.modRail r fun x => { x with suspended := b }
          else t) t).allocated = t.allocated := by
    intro rs
    induction rs with
    | nil => exact fun _ => rfl
    | cons a rs ih =>
      intro t
      rw [List.foldl_cons, ih]
      split <;> rfl
  exact h allRails s

theorem setSuspended_budgetQueue (s : State) (b : Bool) : (s.setSuspended b).budgetQueue = s.budgetQueue := by
  have h : ∀ (rs : List Rail) (t : State),
      (rs.foldl (fun t r =>
          if (t.record r).defined ∧ (t.record r).shedClass = .shed then t.modRail r fun x => { x with suspended := b }
          else t) t).budgetQueue = t.budgetQueue := by
    intro rs
    induction rs with
    | nil => exact fun _ => rfl
    | cons a rs ih =>
      intro t
      rw [List.foldl_cons, ih]
      split <;> rfl
  exact h allRails s

/-- An evaluation of SENSE, each block in one write (R126). -/
theorem evaluateSupply_eq (v : Nat) (s : State) :
    evaluateSupply v s =
      { s with
        supply := s.part.supplyAt v
        limit := s.part.limitIn (s.part.evaluated v)
        sense := v
        rails := Vector.ofFn fun r => { s.rail r with suspended := s.flagEvaluated v r } } := by
  have hrails : (evaluateSupply v s).rails = Vector.ofFn fun r => { s.rail r with suspended := s.flagEvaluated v r } :=
    vector_eq_of_get fun r =>
      (rail_evaluateSupply v s r).trans (get_ofFn (fun r => { s.rail r with suspended := s.flagEvaluated v r }) r).symm
  rw [← hrails, evaluateSupply_cases]
  split
  · have h := onlyRails_setSuspended (s.withSupplyAt v) true
    rw [OnlyRails, setSuspended_allocated, setSuspended_budgetQueue] at h
    exact h
  · rfl

/-- A fold of moves, one for each rail, makes of each record what its own move makes of it. -/
theorem foldl_becomes {f : State → Rail → State} {g : Rail → RailRuntime → RailRuntime} {s : State}
    (ho : ∀ t r, OnlyRails t (f t r)) (hf : ∀ t r, OnlyRails s t → Becomes t (f t r) r (g r (t.rail r)))
    (hg : ∀ r x (hs : Vector Bool 16), g r { x with holdSet := hs } = { g r x with holdSet := hs })
    {rs : List Rail} (hn : rs.Nodup) (t : State) (ht : OnlyRails s t) (q : Rail) :
    SameButHolds (if q ∈ rs then g q (t.rail q) else t.rail q) ((rs.foldl f t).rail q) := by
  induction rs generalizing t with
  | nil => exact .refl _
  | cons a rs ih =>
    obtain ⟨ha, hn⟩ := List.nodup_cons.mp hn
    have hrest := ih hn (f t a) (ht.trans (ho t a))
    have hfirst := hf t a ht
    rw [List.foldl_cons]
    by_cases hq : q = a
    · subst hq
      rw [if_neg ha] at hrest
      rw [if_pos List.mem_cons_self]
      exact hfirst.self.trans hrest
    · have hsame := hfirst.other hq
      by_cases hm : q ∈ rs
      · rw [if_pos hm] at hrest
        rw [if_pos (List.mem_cons_of_mem a hm)]
        rw [hsame, hg] at hrest
        exact hrest
      · rw [if_neg hm] at hrest
        rw [if_neg (by simp [hq, hm])]
        exact hsame.trans hrest

/-- A record in which a running rail has been sent into DRAINING. -/
def RailRuntime.drainedIfRunning (r : Rail) (rec : RailRecord) (c : DrainCause) (x : RailRuntime) : RailRuntime :=
  if x.state.running then x.toDraining r rec c else x

theorem rail_drainRunning (s : State) (c : DrainCause) (r : Rail) :
    SameButHolds ((s.rail r).drainedIfRunning r (s.record r) c) ((s.drainRunning c).rail r) := by
  have h := foldl_becomes (f := fun t r => if (t.rail r).state.running then t.enterDraining r c else t)
    (g := fun r x => x.drainedIfRunning r (s.record r) c) (s := s)
    (fun t r => by
      split
      · exact onlyRails_enterDraining ..
      · exact .refl t)
    (fun t r ht => by
      unfold RailRuntime.drainedIfRunning
      rw [← ht.record r]
      split
      · exact becomes_enterDraining t r c
      · intro q
        split
        · next hq => rw [hq]; exact .refl _
        · exact .refl _)
    (fun r x hs => by
      unfold RailRuntime.drainedIfRunning
      dsimp only
      split <;> rfl)
    nodup_allRails s (.refl s) r
  rwa [if_pos (mem_allRails r)] at h

/-- A record in which a rail in FAULT or WAITING has been set to OFF. -/
def RailRuntime.restartedIfIdle (r : Rail) (x : RailRuntime) : RailRuntime :=
  if x.state = .fault ∨ x.state = .waiting then x.toRestarted r else x

theorem onlyRails_restartIdle (s : State) (r : Rail) : OnlyRails s (s.restartIdle r) := by
  unfold State.restartIdle
  split
  · exact (onlyRails_giveBack s r 0).trans (onlyRails_moveRail ..)
  · exact .refl s

theorem becomes_restartIdle (s : State) (r : Rail) : Becomes s (s.restartIdle r) r ((s.rail r).restartedIfIdle r) := by
  unfold State.restartIdle RailRuntime.restartedIfIdle
  split
  · have h := becomes_moveRail_of (s := s)
      (fun x => { x with state := .off, level := 0, target := 0, timer := .stopped })
      (s.rail_giveBack_self r 0) (s.rail_giveBack_other r 0)
    rw [Nat.min_zero] at h
    exact h
  · intro q
    split
    · next hq => rw [hq]; exact .refl _
    · exact .refl _

/-- The record that a warm reset makes of one, before targets are looked at (R50). -/
def RailRuntime.restarted (r : Rail) (rec : RailRecord) (x : RailRuntime) : RailRuntime :=
  (x.cleared.drainedIfRunning r rec .restart).restartedIfIdle r

theorem RailRuntime.restartedIfIdle_withHoldSet (r : Rail) (x : RailRuntime) (hs : Vector Bool 16) :
    RailRuntime.restartedIfIdle r { x with holdSet := hs } = { x.restartedIfIdle r with holdSet := hs } := by
  unfold RailRuntime.restartedIfIdle
  dsimp only
  split <;> rfl

/-- The part right after a warm reset has cleared the rails' claims, faults and flags and emptied the queue. -/
def State.clearedRails (s : State) : State := { s.modRails fun _ => RailRuntime.cleared with budgetQueue := [] }

theorem State.restartRails_eq (s : State) :
    s.restartRails = allRails.foldl State.restartIdle (s.clearedRails.drainRunning .restart) := rfl

theorem State.rail_clearedRails (s : State) (r : Rail) : s.clearedRails.rail r = (s.rail r).cleared := by
  have hrails : s.clearedRails.rails = (s.modRails fun _ => RailRuntime.cleared).rails := rfl
  rw [State.rail, hrails]
  exact s.rail_modRails _ r

theorem onlyRails_clearedRails (s : State) : OnlyRails s s.clearedRails :=
  (onlyRails_modRails s fun _ => RailRuntime.cleared).trans (onlyRails_setQueue _ [])

theorem onlyRails_restartRails (s : State) : OnlyRails s s.restartRails := by
  rw [State.restartRails_eq]
  exact ((onlyRails_clearedRails s).trans (onlyRails_drainRunning _ .restart)).trans (.foldl onlyRails_restartIdle _ _)

theorem rail_restartRails (s : State) (r : Rail) :
    SameButHolds ((s.rail r).restarted r (s.record r)) (s.restartRails.rail r) := by
  have hdrain := rail_drainRunning s.clearedRails .restart r
  rw [s.rail_clearedRails, (onlyRails_clearedRails s).record] at hdrain
  rw [State.restartRails_eq]
  generalize s.clearedRails.drainRunning .restart = t at hdrain
  have hidle := foldl_becomes (f := State.restartIdle) (g := RailRuntime.restartedIfIdle) (s := t)
    onlyRails_restartIdle (fun t r _ => becomes_restartIdle t r) RailRuntime.restartedIfIdle_withHoldSet
    nodup_allRails t (.refl t) r
  rw [if_pos (mem_allRails r), hdrain, RailRuntime.restartedIfIdle_withHoldSet] at hidle
  exact hidle

theorem rail_activated (s : State) (r : Rail) : s.activated.rail r = (s.rail r).activated :=
  State.rail_modRails _ _ r

end Sys2Proof.Machine
end

/-! ### Rules that each runtime record keeps by itself (R18 to R22, R47) -/

section
namespace Sys2Proof.Machine

/-- A rule on runtime records that every change of a record by itself keeps; it does not look at the hold set, the target, the
claims, the suspended flag or the filtered PG. -/
structure RecordRule (P : Rail → RailRuntime → Prop) : Prop where
  inputs : ∀ (r : Rail) (x : RailRuntime) (hs : Vector Bool 16) (n : Nat) (cs : Vector Nat 4) (b : Bool) (pg : Line),
    P r x → P r { x with holdSet := hs, target := n, claims := cs, suspended := b, pg := pg }
  wait : ∀ r x, x.state = .off → P r x → P r (x.toWaiting r)
  unwait : ∀ r x, x.state = .waiting → P r x → P r (x.toOff r)
  ramp : ∀ r (x : RailRuntime) n time, x.state = .waiting → P r x →
    P r (({ x with held := n } : RailRuntime).toRamping r time)
  slew : ∀ r (x : RailRuntime) n time, x.state = .on → P r x →
    P r (({ x with held := n } : RailRuntime).toSlewing r time)
  drain : ∀ r x rec c, x.state.running = true → P r x → P r (x.toDraining r rec c)
  wholeFall : ∀ r x level, x.state = .slewing → P r x → P r (x.calledBack r level)
  drained : ∀ r x, x.state = .draining → P r x → P r (x.toDrained r)
  on : ∀ r x rec, x.state = .ramping ∨ x.state = .slewing → P r x → P r (x.toOn r rec)
  finish : ∀ r x, x.state = .draining → P r x → P r { x with timer := .stopped, drainFinished := true }
  fault : ∀ r x k, P r x → P r (x.toFault r k)
  clear : ∀ r x, x.faultLatch = true → P r x → P r (x.toCleared r)
  restart : ∀ r x rec, P r x → P r (x.restarted r rec)
  tick : ∀ r x, P r x → P r { x with timer := x.timer.tick }
  powerOn : ∀ r, P r .powerOn

section
variable {P : Rail → RailRuntime → Prop} (hP : RecordRule P) {s t : State}
include hP

theorem RecordRule.holds (r : Rail) (x : RailRuntime) (hs : Vector Bool 16) (h : P r x) : P r { x with holdSet := hs } :=
  hP.inputs r x hs x.target x.claims x.suspended x.pg h

theorem RecordRule.becomes {r : Rail} {y : RailRuntime} (h : Becomes s t r y) (hs : ∀ q, P q (s.rail q)) (hy : P r y)
    (q : Rail) : P q (t.rail q) := h.forall_rail (P := P) hP.holds hs hy q

theorem RecordRule.move (h : Move s t) (hs : ∀ q, P q (s.rail q)) : ∀ q, P q (t.rail q) := by
  cases h.railMove with
  | same hsame => exact fun q => hsame q ▸ hs q
  | target r hb =>
    exact hP.becomes hb hs (hP.inputs r _ (s.rail r).holdSet _ (s.rail r).claims (s.rail r).suspended (s.rail r).pg (hs r))
  | wait r hst _ hb => exact hP.becomes hb hs (hP.wait r _ hst (hs r))
  | unwait r hst _ hb => exact hP.becomes hb hs (hP.unwait r _ hst (hs r))
  | drain r c hst hb => exact hP.becomes hb hs (hP.drain r _ _ c hst (hs r))
  | slewDown r hst _ _ hb => exact hP.becomes hb hs (hP.slew r _ (s.rail r).held _ hst (hs r))
  | drained r hst _ _ hb => exact hP.becomes hb hs (hP.drained r _ hst (hs r))
  | start r n hreq _ hb => exact hP.becomes hb hs (hP.ramp r _ _ _ (State.waiting_of_start hreq) (hs r))
  | backfeed r n hreq _ _ hb => exact hP.becomes hb hs (hP.fault r _ _ (hs r))
  | raise r n hreq _ hb => exact hP.becomes hb hs (hP.slew r _ _ _ (State.on_of_raise hreq) (hs r))
  | wholeFall r level hst _ hb =>
    exact hP.becomes hb hs (hP.drain r _ _ .normal rfl (hP.wholeFall r _ level hst (hs r)))

theorem RecordRule.act (h : Act s t) (hs : ∀ q, P q (s.rail q)) : ∀ q, P q (t.rail q) := by
  have same (hrails : t.rails = s.rails) : ∀ q, P q (t.rail q) := fun q => by
    rw [State.rail, hrails]
    exact hs q
  have inputs (q : Rail) (n : Nat) (cs : Vector Nat 4) (b : Bool) (pg : Line) :
      P q { s.rail q with target := n, claims := cs, suspended := b, pg := pg } :=
    hP.inputs q _ (s.rail q).holdSet n cs b pg (hs q)
  cases h with
  | move _ hm => exact hP.move hm hs
  | beside _ h => exact same (by rw [h])
  | record r x _ _ => exact same rfl
  | part p _ => exact same rfl
  | claim l r v _ _ =>
    exact hP.becomes (becomes_modRail s r _) hs (inputs r _ _ (s.rail r).suspended (s.rail r).pg)
  | pg r level =>
    exact hP.becomes (becomes_modRail s r _) hs (inputs r _ (s.rail r).claims (s.rail r).suspended level)
  | on r hst => exact hP.becomes (becomes_enterOn s r) hs (hP.on r _ _ hst (hs r))
  | finish r hst => exact hP.becomes (becomes_modRail s r _) hs (hP.finish r _ hst (hs r))
  | fault r k _ => exact hP.becomes (becomes_enterFault s r k) hs (hP.fault r _ k (hs r))
  | clear r hl => exact hP.becomes (becomes_moveRail s r _) hs (hP.clear r _ hl (hs r))
  | suspend b =>
    intro q
    rw [State.rail_setSuspended]
    split
    · exact inputs q (s.rail q).target (s.rail q).claims b (s.rail q).pg
    · exact hs q
  | sides w u => exact same rfl
  | supply st timer => exact same rfl
  | evaluate v _ =>
    intro q
    rw [rail_evaluateSupply]
    exact inputs q (s.rail q).target (s.rail q).claims _ (s.rail q).pg
  | restart =>
    intro q
    rw [rail_restartRails]
    exact hP.holds q _ _ (hP.restart q _ _ (hs q))
  | commit v _ _ =>
    intro q
    rw [rail_evaluateSupply, rail_activated]
    exact hP.inputs q RailRuntime.powerOn RailRuntime.powerOn.holdSet 0 RailRuntime.powerOn.claims _ (s.rail q).pg
      (hP.powerOn q)
  | tick =>
    intro q
    rw [State.rail_tickTimers]
    exact hP.tick q _ (hs q)
  | powerOn =>
    intro q
    rw [rail_powerOnReset]
    exact hP.powerOn q

theorem RecordRule.step (h : step s = .next t) (hs : ∀ q, P q (s.rail q)) : ∀ q, P q (t.rail q) :=
  (acts_of_step h).keep (I := fun s => ∀ q, P q (s.rail q)) (fun _ _ ha => hP.act ha) hs

end

/-! ### The lines (R19, R20) -/

/-- The lines of a record follow its state and level. -/
structure RecordLines (r : Rail) (x : RailRuntime) : Prop where
  en : x.en = enLine x.state
  lvl : x.lvl = lvlCode r x.level

theorem recordLines_driveLines (r : Rail) (x : RailRuntime) : RecordLines r (driveLines r x) := ⟨rfl, rfl⟩

theorem RecordLines.restarted {r : Rail} {x : RailRuntime} (h : RecordLines r x) (rec : RailRecord) :
    RecordLines r (x.restarted r rec) := by
  have hdrain : RecordLines r (x.cleared.drainedIfRunning r rec .restart) := by
    unfold RailRuntime.drainedIfRunning
    split
    · exact recordLines_driveLines ..
    · exact ⟨h.en, h.lvl⟩
  unfold RailRuntime.restarted RailRuntime.restartedIfIdle
  split
  · exact recordLines_driveLines ..
  · exact hdrain

theorem recordRule_lines : RecordRule RecordLines where
  inputs _ _ _ _ _ _ _ h := ⟨h.en, h.lvl⟩
  wait _ _ _ _ := recordLines_driveLines ..
  unwait _ _ _ _ := recordLines_driveLines ..
  ramp _ _ _ _ _ _ := recordLines_driveLines ..
  slew _ _ _ _ _ _ := recordLines_driveLines ..
  drain _ _ _ _ _ _ := recordLines_driveLines ..
  wholeFall _ _ _ _ _ := recordLines_driveLines ..
  drained _ _ _ _ := recordLines_driveLines ..
  on _ _ _ _ _ := recordLines_driveLines ..
  finish _ _ _ h := ⟨h.en, h.lvl⟩
  fault _ _ _ _ := recordLines_driveLines ..
  clear _ _ _ _ := recordLines_driveLines ..
  restart _ _ rec h := h.restarted rec
  tick _ _ h := ⟨h.en, h.lvl⟩
  powerOn r := by
    constructor
    · rfl
    · revert r
      decide

theorem linesFollow_iff (s : State) : LinesFollow s ↔ ∀ r, RecordLines r (s.rail r) :=
  forall_congr' fun _ => ⟨fun ⟨h, h'⟩ => ⟨h, h'⟩, fun ⟨h, h'⟩ => ⟨h, h'⟩⟩

/-- Settles O6: every move drives the lines of the record it writes, and what else is written of a record leaves alone the
lines, the state and the level. -/
theorem stepsKeepLines : Obligations.StepsKeepLines := by
  intro s t hs h
  rw [linesFollow_iff] at hs ⊢
  exact recordRule_lines.step h hs

/-! ### The shape of a record (R18, R22, R43, R47) -/

theorem Timer.tick_eq_stopped_iff (t : Timer) : t.tick = .stopped ↔ t = .stopped := by
  cases t <;> simp [Timer.tick]

section
variable {x : RailRuntime} (h : RecordShape x)
include h

theorem RecordShape.slewOrigin_eq_none (hx : x.state ≠ .slewing) : x.slewOrigin = none :=
  Option.not_isSome_iff_eq_none.mp (mt h.origin.mp hx)

theorem RecordShape.drainFinished_eq_false (hx : x.state ≠ .draining) : x.drainFinished = false :=
  Bool.eq_false_iff.mpr (mt h.finished hx)

theorem RecordShape.faultLatch_eq_false (hx : x.state ≠ .fault) : x.faultLatch = false :=
  Bool.eq_false_iff.mpr (mt h.latch.mp hx)

theorem RecordShape.timer_eq_stopped (hr : x.state ≠ .ramping) (hs : x.state ≠ .slewing) (hd : x.state ≠ .draining) :
    x.timer = .stopped := by
  have hnot := mt h.timerRuns.mp (a := x.timer ≠ .stopped)
  exact Decidable.not_not.mp (hnot (by simp [hr, hs, hd]))

end

theorem RecordShape.inputs {x : RailRuntime} (h : RecordShape x) (hs : Vector Bool 16) (n : Nat) (cs : Vector Nat 4) (b : Bool)
    (pg : Line) : RecordShape { x with holdSet := hs, target := n, claims := cs, suspended := b, pg := pg } :=
  ⟨h.unpowered, h.timerRuns, h.origin, h.finished, h.latch, h.kind, h.count⟩

theorem RecordShape.lines {x : RailRuntime} (h : RecordShape x) (r : Rail) : RecordShape (driveLines r x) :=
  ⟨h.unpowered, h.timerRuns, h.origin, h.finished, h.latch, h.kind, h.count⟩

theorem recordShape_powerOn : RecordShape .powerOn := by
  constructor <;> simp [RailRuntime.powerOn]

theorem RecordShape.cleared {x : RailRuntime} (h : RecordShape x) (hx : x.state ≠ .fault) : RecordShape x.cleared :=
  ⟨h.unpowered, h.timerRuns, h.origin, h.finished, by simp [RailRuntime.cleared, hx], fun hf => absurd hf hx, Nat.zero_le _⟩

theorem RecordShape.toDraining {x : RailRuntime} (h : RecordShape x) (hx : x.state.running = true) (r : Rail)
    (rec : RailRecord) (c : DrainCause) : RecordShape (x.toDraining r rec c) := by
  have hfault : x.state ≠ .fault := (RailState.free_of_running hx).1
  refine ⟨?_, ?_, ?_, ?_, ?_, ?_, h.count⟩ <;> simp [RailRuntime.toDraining, h.faultLatch_eq_false hfault]

theorem RecordShape.restarted {x : RailRuntime} (h : RecordShape x) (r : Rail) (rec : RailRecord) :
    RecordShape (x.restarted r rec) := by
  unfold RailRuntime.restarted RailRuntime.drainedIfRunning
  by_cases hrun : x.state.running = true
  · have hfault : x.state ≠ .fault := (RailState.free_of_running hrun).1
    rw [if_pos (show x.cleared.state.running = true from hrun)]
    have hdrain := (h.cleared hfault).toDraining hrun r rec .restart
    rwa [RailRuntime.restartedIfIdle, if_neg (by simp [RailRuntime.toDraining])]
  · rw [if_neg (show ¬ x.cleared.state.running = true from hrun)]
    unfold RailRuntime.restartedIfIdle
    split
    · next hidle =>
      have hidle : x.state = .fault ∨ x.state = .waiting := hidle
      have hslew : x.slewOrigin = none := h.slewOrigin_eq_none (by rcases hidle with h | h <;> simp [h])
      have hfin : x.drainFinished = false := h.drainFinished_eq_false (by rcases hidle with h | h <;> simp [h])
      constructor <;> simp [RailRuntime.toRestarted, RailRuntime.cleared, hslew, hfin]
    · next hidle => exact h.cleared fun hf => hidle (.inl hf)

theorem recordRule_shape : RecordRule fun _ => RecordShape where
  inputs _ _ hs n cs b pg h := h.inputs hs n cs b pg
  wait r x hx h := by
    have hslew := h.slewOrigin_eq_none (by simp [hx])
    have hfin := h.drainFinished_eq_false (by simp [hx])
    have hlatch := h.faultLatch_eq_false (by simp [hx])
    have htimer := h.timer_eq_stopped (by simp [hx]) (by simp [hx]) (by simp [hx])
    have hheld := (h.unpowered (.inl hx)).2
    refine ⟨?_, ?_, ?_, ?_, ?_, ?_, h.count⟩ <;> simp [RailRuntime.toWaiting, hslew, hfin, hlatch, htimer, hheld]
  unwait r x hx h := by
    have hslew := h.slewOrigin_eq_none (by simp [hx])
    have hfin := h.drainFinished_eq_false (by simp [hx])
    have hlatch := h.faultLatch_eq_false (by simp [hx])
    have htimer := h.timer_eq_stopped (by simp [hx]) (by simp [hx]) (by simp [hx])
    have hheld := (h.unpowered (.inr (.inl hx))).2
    refine ⟨?_, ?_, ?_, ?_, ?_, ?_, h.count⟩ <;> simp [RailRuntime.toOff, hslew, hfin, hlatch, htimer, hheld]
  ramp r x n time hx h := by
    have hslew := h.slewOrigin_eq_none (by simp [hx])
    have hfin := h.drainFinished_eq_false (by simp [hx])
    have hlatch := h.faultLatch_eq_false (by simp [hx])
    refine ⟨?_, ?_, ?_, ?_, ?_, ?_, h.count⟩ <;> simp [RailRuntime.toRamping, hslew, hfin, hlatch]
  slew r x n time hx h := by
    have hfin := h.drainFinished_eq_false (by simp [hx])
    have hlatch := h.faultLatch_eq_false (by simp [hx])
    refine ⟨?_, ?_, ?_, ?_, ?_, ?_, h.count⟩ <;> simp [RailRuntime.toSlewing, hfin, hlatch]
  drain r x rec c hx h := h.toDraining hx r rec c
  wholeFall r x level hx h := by
    have hfin := h.drainFinished_eq_false (by simp [hx])
    have hlatch := h.faultLatch_eq_false (by simp [hx])
    refine ⟨?_, ?_, ?_, ?_, ?_, ?_, h.count⟩ <;> simp [RailRuntime.calledBack, hfin, hlatch]
  drained r x hx h := by
    have hslew := h.slewOrigin_eq_none (by simp [hx])
    have hlatch := h.faultLatch_eq_false (by simp [hx])
    refine ⟨?_, ?_, ?_, ?_, ?_, ?_, h.count⟩ <;> by_cases ht : x.target = 0 <;>
      simp [RailRuntime.toDrained, ht, hslew, hlatch]
  on r x rec hx h := by
    have hfin := h.drainFinished_eq_false (by rcases hx with hx | hx <;> simp [hx])
    have hlatch := h.faultLatch_eq_false (by rcases hx with hx | hx <;> simp [hx])
    refine ⟨?_, ?_, ?_, ?_, ?_, ?_, h.count⟩ <;> simp [RailRuntime.toOn, hfin, hlatch]
  finish r x hx h := by
    have hslew := h.slewOrigin_eq_none (by simp [hx])
    have hlatch := h.faultLatch_eq_false (by simp [hx])
    refine ⟨?_, ?_, ?_, ?_, ?_, ?_, h.count⟩ <;> simp [hx, hslew, hlatch]
  fault r x k h := by
    refine ⟨?_, ?_, ?_, ?_, ?_, ?_, Nat.min_le_right ..⟩ <;> simp [RailRuntime.toFault]
  clear r x hx h := by
    have hx := h.latch.mp hx
    have hslew := h.slewOrigin_eq_none (by simp [hx])
    have hfin := h.drainFinished_eq_false (by simp [hx])
    have htimer := h.timer_eq_stopped (by simp [hx]) (by simp [hx]) (by simp [hx])
    have hheld := (h.unpowered (.inr (.inr hx))).2
    refine ⟨?_, ?_, ?_, ?_, ?_, ?_, h.count⟩ <;> by_cases ht : x.target = 0 <;>
      simp [RailRuntime.toCleared, ht, hslew, hfin, htimer, hheld]
  restart r x rec h := h.restarted r rec
  tick r x h := by
    refine ⟨h.unpowered, ?_, h.origin, h.finished, h.latch, h.kind, h.count⟩
    rw [← h.timerRuns]
    exact not_congr (Timer.tick_eq_stopped_iff _)
  powerOn _ := recordShape_powerOn

/-- Settles O9: the shape is a rule that each change of a record keeps by itself. -/
theorem stepsKeepRecordsShaped : Obligations.StepsKeepRecordsShaped := fun _ _ hs h => recordRule_shape.step h hs

end Sys2Proof.Machine
end

/-! ### Allocated and the budget held (R72) -/

section
namespace Sys2Proof.Machine

theorem sum_map_of_one (f g : Rail → Nat) {r : Rail} {rs : List Rail} (hn : rs.Nodup) (hr : r ∈ rs)
    (h : ∀ q, q ≠ r → g q = f q) : (rs.map g).sum + f r = (rs.map f).sum + g r := by
  induction rs with
  | nil => cases hr
  | cons a rs ih =>
    obtain ⟨ha, hn⟩ := List.nodup_cons.mp hn
    simp only [List.map_cons, List.sum_cons]
    by_cases hra : a = r
    · subst hra
      have hrest : rs.map g = rs.map f := List.map_congr_left fun q hq => h q (by rintro rfl; exact ha hq)
      rw [hrest]
      omega
    · have hm : r ∈ rs := (List.mem_cons.mp hr).resolve_left (Ne.symm hra)
      have hrest := ih hn hm
      rw [h a hra]
      omega

/-- Where one rail alone holds another budget, the sum differs by that rail's. -/
theorem State.heldTotal_of_one {s t : State} {r : Rail} (h : ∀ q, q ≠ r → (t.rail q).held = (s.rail q).held) :
    t.heldTotal + (s.rail r).held = s.heldTotal + (t.rail r).held :=
  sum_map_of_one (fun q => (s.rail q).held) (fun q => (t.rail q).held) nodup_allRails (mem_allRails r) h

theorem State.heldTotal_congr {s t : State} (h : ∀ q, (t.rail q).held = (s.rail q).held) : t.heldTotal = s.heldTotal := by
  unfold State.heldTotal
  rw [funext h]

/-- A summand is at most the sum. -/
theorem le_sum_of_mem {xs : List Nat} {n : Nat} (h : n ∈ xs) : n ≤ xs.sum := by
  induction xs with
  | nil => cases h
  | cons x xs ih =>
    rw [List.sum_cons]
    rcases List.mem_cons.mp h with rfl | h
    · exact Nat.le_add_right ..
    · exact Nat.le_trans (ih h) (Nat.le_add_left ..)

theorem State.held_le_heldTotal (s : State) (r : Rail) : (s.rail r).held ≤ s.heldTotal :=
  le_sum_of_mem (List.mem_map.mpr ⟨r, mem_allRails r, rfl⟩)

theorem BudgetBalanced.congr {s t : State} (hs : BudgetBalanced s) (ha : t.allocated = s.allocated)
    (hh : ∀ q, (t.rail q).held = (s.rail q).held) : BudgetBalanced t := by
  unfold BudgetBalanced at *
  rw [ha, hs, State.heldTotal_congr hh]

theorem BudgetBalanced.giveBack {s : State} (hs : BudgetBalanced s) (r : Rail) (n : Nat) :
    BudgetBalanced (s.giveBack r n) := by
  have htotal := State.heldTotal_of_one (s := s) (t := s.giveBack r n) (r := r)
    fun q hq => congrArg RailRuntime.held (s.rail_giveBack_other r n q hq)
  have hself : ((s.giveBack r n).rail r).held = min (s.rail r).held n :=
    congrArg RailRuntime.held (s.rail_giveBack_self r n)
  have hle := s.held_le_heldTotal r
  unfold BudgetBalanced at *
  rw [giveBack_allocated]
  omega

theorem BudgetBalanced.takeBudget {s : State} (hs : BudgetBalanced s) (r : Rail) (n : Nat) :
    BudgetBalanced (s.takeBudget r n) := by
  have htotal := State.heldTotal_of_one (s := s) (t := s.takeBudget r n) (r := r)
    fun q hq => congrArg RailRuntime.held (s.rail_takeBudget_other r n hq)
  have hself : ((s.takeBudget r n).rail r).held = (s.rail r).held + n :=
    congrArg RailRuntime.held (s.rail_takeBudget_self r n)
  unfold BudgetBalanced at *
  rw [takeBudget_allocated]
  omega

/-- A move that writes no budget. -/
theorem BudgetBalanced.moveRail {s : State} (hs : BudgetBalanced s) (r : Rail) {f : RailRuntime → RailRuntime}
    (hf : ∀ x, (f x).held = x.held) : BudgetBalanced (s.moveRail r f) := by
  refine hs.congr (moveRail_allocated s r f) fun q => ?_
  have h := becomes_moveRail s r f q
  rw [h]
  dsimp only
  split
  · next hq => rw [hq]; exact hf _
  · rfl

theorem BudgetBalanced.modRail {s : State} (hs : BudgetBalanced s) (r : Rail) {f : RailRuntime → RailRuntime}
    (hf : ∀ x, (f x).held = x.held) : BudgetBalanced (s.modRail r f) := by
  refine hs.congr rfl fun q => ?_
  rw [State.rail_modRail]
  split
  · next hq => rw [hq]; exact hf _
  · rfl

theorem BudgetBalanced.withdraw {s : State} (hs : BudgetBalanced s) (r : Rail) : BudgetBalanced (s.withdraw r) := hs

section
variable {s : State} (hs : BudgetBalanced s)
include hs

theorem BudgetBalanced.enterSlewing (r : Rail) : BudgetBalanced (s.enterSlewing r) :=
  (hs.withdraw r).moveRail r fun _ => rfl

theorem BudgetBalanced.enterDraining (r : Rail) (c : DrainCause) : BudgetBalanced (s.enterDraining r c) := by
  unfold State.enterDraining
  dsimp only
  split
  · exact ((hs.withdraw r).giveBack r _).moveRail r fun _ => rfl
  · exact (hs.withdraw r).moveRail r fun _ => rfl

theorem BudgetBalanced.enterOn (r : Rail) : BudgetBalanced (s.enterOn r) := by
  unfold State.enterOn
  dsimp only
  split
  · exact (hs.giveBack r _).moveRail r fun _ => rfl
  · exact hs.moveRail r fun _ => rfl

theorem BudgetBalanced.enterFault (r : Rail) (k : FaultKind) : BudgetBalanced (s.enterFault r k) :=
  ((hs.withdraw r).giveBack r 0).moveRail r fun _ => rfl

end

theorem Move.balanced {s t : State} (h : Move s t) (hs : BudgetBalanced s) : BudgetBalanced t := by
  cases h with
  | target r => exact hs.modRail r fun _ => rfl
  | wait r _ _ => exact hs.moveRail r fun _ => rfl
  | unwait r _ _ => exact (hs.withdraw r).moveRail r fun _ => rfl
  | drain r c _ => exact hs.enterDraining r c
  | slewDown r _ _ _ => exact hs.enterSlewing r
  | drained r _ _ _ => exact (hs.giveBack r 0).moveRail r fun _ => rfl
  | start r n _ _ => exact (hs.takeBudget r n).moveRail r fun _ => rfl
  | backfeed r n _ _ _ _ => exact (hs.takeBudget r n).enterFault r .backfeed
  | raise r n _ _ => exact (hs.takeBudget r n).enterSlewing r
  | wholeFall r level _ _ =>
    have hback : BudgetBalanced (s.callBackSlew r level) := hs.moveRail r fun _ => rfl
    exact hback.enterDraining r .normal
  | reconcile => exact hs
  | place r => exact hs.congr (s.placeRequest_rails r).2 fun q => by rw [s.rail_placeRequest]
  | pop => exact hs

theorem Moves.balanced {s t : State} (h : Moves s t) (hs : BudgetBalanced s) : BudgetBalanced t :=
  h.keep (fun _ _ hm => hm.balanced) hs

theorem State.restartIdle_balanced {s : State} (hs : BudgetBalanced s) (r : Rail) : BudgetBalanced (s.restartIdle r) := by
  unfold State.restartIdle
  split
  · exact (hs.giveBack r 0).moveRail r fun _ => rfl
  · exact hs

theorem State.clearedRails_allocated (s : State) : s.clearedRails.allocated = s.allocated := by
  unfold State.clearedRails
  dsimp only
  exact modRails_allocated ..

theorem State.restartRails_balanced {s : State} (hs : BudgetBalanced s) : BudgetBalanced s.restartRails := by
  have hcleared : BudgetBalanced s.clearedRails :=
    hs.congr s.clearedRails_allocated fun q => by rw [s.rail_clearedRails]; rfl
  have hdrained : BudgetBalanced (s.clearedRails.drainRunning .restart) := (moves_drainRunning _ _).balanced hcleared
  have hfold : ∀ (rs : List Rail) (t : State), BudgetBalanced t → BudgetBalanced (rs.foldl State.restartIdle t) := by
    intro rs
    induction rs with
    | nil => exact fun _ ht => ht
    | cons a rs ih => exact fun t ht => ih _ (State.restartIdle_balanced ht a)
  rw [State.restartRails_eq]
  exact hfold allRails _ hdrained

/-- A sum without a summand above 0. -/
theorem sum_eq_zero_of_mem {xs : List Nat} (h : ∀ n ∈ xs, n = 0) : xs.sum = 0 := by
  induction xs with
  | nil => rfl
  | cons x xs ih => rw [List.sum_cons, h x List.mem_cons_self, ih fun n hn => h n (List.mem_cons_of_mem x hn)]

theorem heldTotal_eq_zero {s : State} (h : ∀ q, (s.rail q).held = 0) : s.heldTotal = 0 :=
  sum_eq_zero_of_mem fun n hn => by
    obtain ⟨q, -, rfl⟩ := List.mem_map.mp hn
    exact h q

theorem evaluateSupply_allocated (v : Nat) (s : State) : (evaluateSupply v s).allocated = s.allocated := by
  rw [evaluateSupply_eq]

theorem State.activated_allocated (s : State) : s.activated.allocated = 0 := modRails_allocated _ _

theorem Act.balanced {s t : State} (h : Act s t) (hs : BudgetBalanced s) : BudgetBalanced t := by
  cases h with
  | move _ hm => exact hm.balanced hs
  | beside _ h => exact hs.congr (by rw [h]) fun q => by rw [State.rail, h]; rfl
  | record r x _ _ => exact hs
  | part p _ => exact hs
  | claim l r v _ _ => exact hs.modRail r fun _ => rfl
  | pg r level => exact hs.modRail r fun _ => rfl
  | on r _ => exact hs.enterOn r
  | finish r _ => exact hs.modRail r fun _ => rfl
  | fault r k _ => exact hs.enterFault r k
  | clear r _ => exact hs.moveRail r fun _ => rfl
  | suspend b =>
    refine hs.congr (setSuspended_allocated s b) fun q => ?_
    rw [State.rail_setSuspended]
    split <;> rfl
  | sides w u => exact hs
  | supply st timer => exact hs
  | evaluate v _ => exact hs.congr (evaluateSupply_allocated v s) fun q => by rw [rail_evaluateSupply]
  | restart => exact State.restartRails_balanced hs
  | commit v _ _ =>
    have hzero : (evaluateSupply v s.activated).heldTotal = 0 := heldTotal_eq_zero fun q => by
      rw [rail_evaluateSupply, rail_activated]
      rfl
    unfold BudgetBalanced
    rw [hzero, evaluateSupply_allocated, State.activated_allocated]
  | tick => exact hs.congr (by rw [State.tickTimers_eq]) fun q => by rw [State.rail_tickTimers]
  | powerOn =>
    have hzero : (powerOnReset s).heldTotal = 0 := heldTotal_eq_zero fun q => by
      rw [rail_powerOnReset]
      rfl
    unfold BudgetBalanced
    rw [hzero, powerOnReset_eq]
    rfl

/-- Settles O7: every change of the budget a rail holds goes with the same change of allocated. -/
theorem stepsKeepBudgetBalanced : Obligations.StepsKeepBudgetBalanced := fun _ _ hs h =>
  (acts_of_step h).keep (fun _ _ ha => ha.balanced) hs

/-! ### The bounds of allocated and the limit (R72, R74, R168) -/

/-- From `s` to `t` the rails and the arbiter alone change, and allocated does not rise. -/
structure Lowers (s t : State) : Prop where
  onlyRails : OnlyRails s t
  allocated : t.allocated ≤ s.allocated

theorem Lowers.refl (s : State) : Lowers s s := ⟨.refl s, Nat.le_refl _⟩

theorem Lowers.trans {s t u : State} (h : Lowers s t) (h' : Lowers t u) : Lowers s u :=
  ⟨h.onlyRails.trans h'.onlyRails, Nat.le_trans h'.allocated h.allocated⟩

theorem Lowers.foldl {α : Type} {f : State → α → State} (h : ∀ s a, Lowers s (f s a)) (xs : List α) (s : State) :
    Lowers s (xs.foldl f s) := by
  induction xs generalizing s with
  | nil => exact .refl s
  | cons a xs ih => exact (h s a).trans (ih _)

theorem lowers_giveBack (s : State) (r : Rail) (n : Nat) : Lowers s (s.giveBack r n) :=
  ⟨onlyRails_giveBack s r n, Nat.sub_le ..⟩

theorem lowers_moveRail (s : State) (r : Rail) (f : RailRuntime → RailRuntime) : Lowers s (s.moveRail r f) :=
  ⟨onlyRails_moveRail s r f, Nat.le_of_eq (moveRail_allocated s r f)⟩

theorem lowers_withdraw (s : State) (r : Rail) : Lowers s (s.withdraw r) := ⟨onlyRails_withdraw s r, Nat.le_refl _⟩

theorem lowers_enterDraining (s : State) (r : Rail) (c : DrainCause) : Lowers s (s.enterDraining r c) := by
  unfold State.enterDraining
  dsimp only
  split
  · exact ((lowers_withdraw s r).trans (lowers_giveBack ..)).trans (lowers_moveRail ..)
  · exact (lowers_withdraw s r).trans (lowers_moveRail ..)

theorem lowers_enterOn (s : State) (r : Rail) : Lowers s (s.enterOn r) := by
  unfold State.enterOn
  dsimp only
  split
  · exact (lowers_giveBack ..).trans (lowers_moveRail ..)
  · exact lowers_moveRail ..

theorem lowers_enterFault (s : State) (r : Rail) (k : FaultKind) : Lowers s (s.enterFault r k) :=
  ((lowers_withdraw s r).trans (lowers_giveBack _ r 0)).trans (lowers_moveRail ..)

/-- A rail that has taken budget and enters FAULT at once gives back at least what it took. -/
theorem lowers_backfeed (s : State) (r : Rail) (n : Nat) (k : FaultKind) : Lowers s ((s.takeBudget r n).enterFault r k) := by
  refine ⟨(onlyRails_takeBudget s r n).trans (lowers_enterFault _ r k).onlyRails, ?_⟩
  have hself : (((s.takeBudget r n).withdraw r).rail r).held = (s.rail r).held + n :=
    congrArg RailRuntime.held (s.rail_takeBudget_self r n)
  have h : ((s.takeBudget r n).enterFault r k).allocated =
      (s.allocated + n) - ((((s.takeBudget r n).withdraw r).rail r).held - min (((s.takeBudget r n).withdraw r).rail r).held 0) :=
    moveRail_allocated ..
  rw [h, hself]
  omega

/-- A move raises allocated by a granted amount that fits, if at all. -/
theorem Move.lowers_or_fits {s t : State} (h : Move s t) :
    Lowers s t ∨ OnlyRails s t ∧ ∃ n, s.fits n = true ∧ t.allocated = s.allocated + n := by
  cases h with
  | target r => exact .inl ⟨onlyRails_modRail .., Nat.le_refl _⟩
  | wait r _ _ => exact .inl (lowers_moveRail ..)
  | unwait r _ _ => exact .inl ((lowers_withdraw s r).trans (lowers_moveRail ..))
  | drain r c _ => exact .inl (lowers_enterDraining ..)
  | slewDown r _ _ _ => exact .inl ((lowers_withdraw s r).trans (lowers_moveRail ..))
  | drained r _ _ _ => exact .inl ((lowers_giveBack s r 0).trans (lowers_moveRail ..))
  | start r n _ hfits =>
    exact .inr ⟨(onlyRails_takeBudget s r n).trans (onlyRails_enterRamping ..), n, hfits, moveRail_allocated ..⟩
  | backfeed r n _ _ _ _ => exact .inl (lowers_backfeed ..)
  | raise r n _ hfits =>
    exact .inr ⟨(onlyRails_takeBudget s r n).trans (onlyRails_enterSlewing ..), n, hfits, moveRail_allocated ..⟩
  | wholeFall r level _ _ => exact .inl ((lowers_moveRail s r _).trans (lowers_enterDraining ..))
  | reconcile => exact .inl ⟨onlyRails_reconcile s, Nat.le_refl _⟩
  | place r => exact .inl ⟨onlyRails_placeRequest s r, Nat.le_of_eq (s.placeRequest_rails r).2⟩
  | pop => exact .inl ⟨onlyRails_setQueue .., Nat.le_refl _⟩

/-- A move writes the rails, allocated and the queue alone. -/
theorem Move.onlyRails {s t : State} (h : Move s t) : OnlyRails s t := h.lowers_or_fits.elim Lowers.onlyRails And.left

theorem Moves.onlyRails {s t : State} (h : Moves s t) : OnlyRails s t :=
  h.keep (I := OnlyRails s) (fun _ _ hm ho => ho.trans hm.onlyRails) (.refl s)

theorem lowers_restartIdle (s : State) (r : Rail) : Lowers s (s.restartIdle r) := by
  unfold State.restartIdle
  split
  · exact (lowers_giveBack s r 0).trans (lowers_moveRail ..)
  · exact .refl s

theorem lowers_drainRunning (s : State) (c : DrainCause) : Lowers s (s.drainRunning c) :=
  .foldl (fun t r => by
    split
    · exact lowers_enterDraining ..
    · exact .refl t) _ s

theorem lowers_restartRails (s : State) : Lowers s s.restartRails := by
  rw [State.restartRails_eq]
  have hcleared : Lowers s s.clearedRails := ⟨onlyRails_clearedRails s, Nat.le_of_eq s.clearedRails_allocated⟩
  exact (hcleared.trans (lowers_drainRunning _ .restart)).trans (.foldl lowers_restartIdle _ _)

theorem BudgetWithin.of_lowers {s t : State} (hs : BudgetWithin s) (h : Lowers s t) : BudgetWithin t := by
  intro hcommitted
  obtain ⟨hlow, hlimit, hallocated⟩ := hs (h.onlyRails.lifecycle ▸ hcommitted)
  rw [h.onlyRails.part, h.onlyRails.limit]
  exact ⟨hlow, hlimit, Nat.le_trans h.allocated hallocated⟩

theorem Move.within {s t : State} (h : Move s t) (hs : BudgetWithin s) : BudgetWithin t := by
  rcases h.lowers_or_fits with hl | ⟨ho, n, hfits, ha⟩
  · exact hs.of_lowers hl
  · intro hcommitted
    obtain ⟨hlow, hlimit, hallocated⟩ := hs (ho.lifecycle ▸ hcommitted)
    rw [ho.part, ho.limit, ha]
    refine ⟨hlow, hlimit, ?_⟩
    rcases (s.fits_iff n).mp hfits with rfl | hn
    · exact hallocated
    · exact Nat.le_trans hn hlimit

/-- The limit of every supply state is within budget full where budget low is. -/
theorem PartRecord.limitIn_le {p : PartRecord} (h : p.budgetLow ≤ p.budgetFull) (st : SupplyState) :
    p.limitIn st ≤ p.budgetFull.toNat := by
  cases st
  · exact Nat.le_refl _
  · exact h
  · exact Nat.zero_le _
  · exact h

theorem partFault_eq_none_of_commitFault {s : State} (h : commitFault s = none) : partFault s.part = none := by
  unfold commitFault at h
  split at h
  · cases h
  · assumption

/-- Check 2 of COMMIT: budget low is not above budget full. -/
theorem budgetLow_le_of_partFault {p : PartRecord} (h : partFault p = none) : p.budgetLow ≤ p.budgetFull := by
  unfold partFault at h
  split at h
  · cases h
  · split at h
    · cases h
    · next hlow => exact BitVec.not_lt.mp hlow

theorem Act.within {s t : State} (h : Act s t) (hs : BudgetWithin s) : BudgetWithin t := by
  cases h with
  | move _ hm => exact hm.within hs
  | beside _ h =>
    rw [h]
    exact hs
  | record r x hu _ => exact fun hc => absurd (hu.symm.trans hc) nofun
  | part p hu => exact fun hc => absurd (hu.symm.trans hc) nofun
  | claim l r v _ _ => exact hs.of_lowers ⟨onlyRails_modRail .., Nat.le_refl _⟩
  | pg r level => exact hs.of_lowers ⟨onlyRails_modRail .., Nat.le_refl _⟩
  | on r _ => exact hs.of_lowers (lowers_enterOn s r)
  | finish r _ => exact hs.of_lowers ⟨onlyRails_modRail .., Nat.le_refl _⟩
  | fault r k _ => exact hs.of_lowers (lowers_enterFault s r k)
  | clear r _ => exact hs.of_lowers (lowers_moveRail ..)
  | suspend b => exact hs.of_lowers ⟨onlyRails_setSuspended s b, Nat.le_of_eq (setSuspended_allocated s b)⟩
  | sides w u => exact hs
  | supply st timer =>
    intro hc
    obtain ⟨hlow, -, hallocated⟩ := hs hc
    exact ⟨hlow, PartRecord.limitIn_le hlow st, hallocated⟩
  | evaluate v hc =>
    intro _
    obtain ⟨hlow, -, hallocated⟩ := hs hc
    rw [evaluateSupply_eq]
    exact ⟨hlow, PartRecord.limitIn_le hlow _, hallocated⟩
  | restart => exact hs.of_lowers (lowers_restartRails s)
  | commit v _ hfault =>
    intro _
    have hlow := budgetLow_le_of_partFault (partFault_eq_none_of_commitFault hfault)
    have hpart : s.activated.part = s.part := (onlyRails_modRails _ _).part
    rw [evaluateSupply_eq]
    dsimp only
    rw [State.activated_allocated, hpart]
    exact ⟨hlow, PartRecord.limitIn_le hlow _, Nat.zero_le _⟩
  | tick =>
    rw [State.tickTimers_eq]
    exact hs
  | powerOn =>
    intro hc
    rw [powerOnReset_eq] at hc
    cases hc

/-- Settles O8: the arbiter grants what fits the limit, and the limit of every supply state is within budget full. -/
theorem stepsKeepBudgetWithin : Obligations.StepsKeepBudgetWithin := fun _ _ hs h =>
  (acts_of_step h).keep (fun _ _ ha => ha.within) hs

end Sys2Proof.Machine
end

/-! ### The hold sets (R56 to R58) -/

section
namespace Sys2Proof.Machine

theorem get_replicate {α : Type} {n : Nat} (x : α) (i : Fin n) : (Vector.replicate n x).get i = x :=
  Vector.getElem_replicate i.isLt

theorem State.isParent_of_onlyRails {s t : State} (h : OnlyRails s t) (p c : Rail) : t.isParent p c = s.isParent p c :=
  State.isParent_of_records_eq h.records p c

theorem HoldsExact.congr {s t : State} (hs : HoldsExact s) (hr : t.records = s.records)
    (hstate : ∀ q, (t.rail q).state = (s.rail q).state) (hhold : ∀ q, (t.rail q).holdSet = (s.rail q).holdSet) :
    HoldsExact t := by
  intro p c
  rw [hhold, hstate, State.isParent_of_records_eq hr]
  exact hs p c

/-- A rail that moves takes its parents' hold sets with it. -/
theorem HoldsExact.moveRail {s : State} (hs : HoldsExact s) (r : Rail) {f : RailRuntime → RailRuntime}
    (hf : (f (s.rail r)).holdSet = (s.rail r).holdSet) : HoldsExact (s.moveRail r f) := by
  intro p c
  have hstate : ((s.moveRail r f).rail c).state = if c = r then (f (s.rail r)).state else (s.rail c).state := by
    rw [becomes_moveRail s r f c]
    dsimp only
    split <;> rfl
  have hhold : ((s.moveRail r f).rail p).holdSet =
      if p ∈ s.parentsOf r then (s.rail p).holdSet.set r.val (f (s.rail r)).state.holding r.isLt
      else (s.rail p).holdSet := by
    have hrec : (if p = r then driveLines r (f (s.rail r)) else s.rail p).holdSet = (s.rail p).holdSet := by
      split
      · next hp => rw [hp]; exact hf
      · rfl
    rw [State.rail_moveRail]
    dsimp only
    split
    · rw [← hrec]
    · exact hrec
  rw [State.isParent_of_onlyRails (onlyRails_moveRail s r f), hstate, hhold]
  by_cases hp : p ∈ s.parentsOf r
  · rw [if_pos hp, get_set]
    by_cases hc : c = r
    · subst hc
      rw [if_pos rfl, if_pos rfl, (s.mem_parentsOf_iff p c).mp hp, Bool.true_and]
    · rw [if_neg hc, if_neg hc]
      exact hs p c
  · rw [if_neg hp]
    by_cases hc : c = r
    · subst hc
      have hnot : s.isParent p c = false := Bool.eq_false_iff.mpr (mt (s.mem_parentsOf_iff p c).mpr hp)
      rw [hs p c, hnot, Bool.false_and, Bool.false_and]
    · rw [if_neg hc]
      exact hs p c

theorem HoldsExact.modRail {s : State} (hs : HoldsExact s) (r : Rail) {f : RailRuntime → RailRuntime}
    (hstate : ∀ x, (f x).state = x.state) (hhold : ∀ x, (f x).holdSet = x.holdSet) : HoldsExact (s.modRail r f) := by
  refine hs.congr rfl (fun q => ?_) fun q => ?_
  · rw [State.rail_modRail]
    split
    · next hq => rw [hq]; exact hstate _
    · rfl
  · rw [State.rail_modRail]
    split
    · next hq => rw [hq]; exact hhold _
    · rfl

section
variable {s : State} (hs : HoldsExact s)
include hs

theorem HoldsExact.withdraw (r : Rail) : HoldsExact (s.withdraw r) := hs

theorem HoldsExact.giveBack (r : Rail) (n : Nat) : HoldsExact (s.giveBack r n) :=
  hs.modRail r (f := fun x => { x with held := min x.held n }) (fun _ => rfl) fun _ => rfl

theorem HoldsExact.takeBudget (r : Rail) (n : Nat) : HoldsExact (s.takeBudget r n) :=
  hs.modRail r (f := fun x => { x with held := x.held + n }) (fun _ => rfl) fun _ => rfl

theorem HoldsExact.enterSlewing (r : Rail) : HoldsExact (s.enterSlewing r) := (hs.withdraw r).moveRail r rfl

theorem HoldsExact.enterDraining (r : Rail) (c : DrainCause) : HoldsExact (s.enterDraining r c) := by
  unfold State.enterDraining
  dsimp only
  split
  · exact ((hs.withdraw r).giveBack r _).moveRail r rfl
  · exact (hs.withdraw r).moveRail r rfl

theorem HoldsExact.enterOn (r : Rail) : HoldsExact (s.enterOn r) := by
  unfold State.enterOn
  dsimp only
  split
  · exact (hs.giveBack r _).moveRail r rfl
  · exact hs.moveRail r rfl

theorem HoldsExact.enterFault (r : Rail) (k : FaultKind) : HoldsExact (s.enterFault r k) :=
  ((hs.withdraw r).giveBack r 0).moveRail r rfl

end

theorem Move.holds {s t : State} (h : Move s t) (hs : HoldsExact s) : HoldsExact t := by
  cases h with
  | target r => exact hs.modRail r (fun _ => rfl) fun _ => rfl
  | wait r _ _ => exact hs.moveRail r rfl
  | unwait r _ _ => exact (hs.withdraw r).moveRail r rfl
  | drain r c _ => exact hs.enterDraining r c
  | slewDown r _ _ _ => exact hs.enterSlewing r
  | drained r _ _ _ => exact (hs.giveBack r 0).moveRail r rfl
  | start r n _ _ => exact (hs.takeBudget r n).moveRail r rfl
  | backfeed r n _ _ _ _ => exact (hs.takeBudget r n).enterFault r .backfeed
  | raise r n _ _ => exact (hs.takeBudget r n).enterSlewing r
  | wholeFall r level _ _ =>
    have hback : HoldsExact (s.callBackSlew r level) := hs.moveRail r rfl
    exact hback.enterDraining r .normal
  | reconcile => exact hs
  | place r =>
    exact hs.congr (onlyRails_placeRequest s r).records (fun q => by rw [s.rail_placeRequest])
      fun q => by rw [s.rail_placeRequest]
  | pop => exact hs

theorem Moves.holds {s t : State} (h : Moves s t) (hs : HoldsExact s) : HoldsExact t :=
  h.keep (fun _ _ hm => hm.holds) hs

theorem HoldsExact.restartIdle {s : State} (hs : HoldsExact s) (r : Rail) : HoldsExact (s.restartIdle r) := by
  unfold State.restartIdle
  split
  · exact (hs.giveBack r 0).moveRail r rfl
  · exact hs

theorem HoldsExact.restartRails {s : State} (hs : HoldsExact s) : HoldsExact s.restartRails := by
  have hcleared : HoldsExact s.clearedRails :=
    hs.congr (onlyRails_clearedRails s).records (fun q => by rw [s.rail_clearedRails]; rfl)
      fun q => by rw [s.rail_clearedRails]; rfl
  have hfold : ∀ (rs : List Rail) (t : State), HoldsExact t → HoldsExact (rs.foldl State.restartIdle t) := by
    intro rs
    induction rs with
    | nil => exact fun _ ht => ht
    | cons a rs ih => exact fun t ht => ih _ (ht.restartIdle a)
  rw [State.restartRails_eq]
  exact hfold allRails _ ((moves_drainRunning _ .restart).holds hcleared)

/-- Where no rail holds another, and the hold sets are empty, they are exact. -/
theorem holdsExact_of_idle {s : State} (hstate : ∀ q, (s.rail q).state = .off)
    (hhold : ∀ q, (s.rail q).holdSet = .replicate 16 false) : HoldsExact s := by
  intro p c
  rw [hhold, hstate, get_replicate]
  exact (Bool.and_false _).symm

/-- The hold sets of a committed part are kept exact by every elementary change; the parent lists are not written in one. -/
theorem Act.holds {s t : State} (h : Act s t) (hs : s.lifecycle = .committed → HoldsExact s) :
    t.lifecycle = .committed → HoldsExact t := by
  have writes {u : State} (ho : OnlyRails s u) (hu : HoldsExact s → HoldsExact u) :
      u.lifecycle = .committed → HoldsExact u := fun hc => hu (hs (ho.lifecycle ▸ hc))
  have same {u : State} (hl : u.lifecycle = s.lifecycle) (hr : u.records = s.records) (hrails : u.rails = s.rails) :
      u.lifecycle = .committed → HoldsExact u := fun hc =>
    (hs (hl ▸ hc)).congr hr (fun q => by rw [State.rail, hrails, State.rail]) fun q => by rw [State.rail, hrails, State.rail]
  cases h with
  | move _ hm => exact writes hm.onlyRails hm.holds
  | beside _ h => exact same (by rw [h]) (by rw [h]) (by rw [h])
  | record r x hu _ => exact fun hc => absurd (hu.symm.trans hc) nofun
  | part p hu => exact fun hc => absurd (hu.symm.trans hc) nofun
  | claim l r v _ _ => exact writes (onlyRails_modRail ..) fun h => h.modRail r (fun _ => rfl) fun _ => rfl
  | pg r level => exact writes (onlyRails_modRail ..) fun h => h.modRail r (fun _ => rfl) fun _ => rfl
  | on r _ => exact writes (onlyRails_enterOn s r) fun h => h.enterOn r
  | finish r _ => exact writes (onlyRails_modRail ..) fun h => h.modRail r (fun _ => rfl) fun _ => rfl
  | fault r k _ => exact writes (onlyRails_enterFault s r k) fun h => h.enterFault r k
  | clear r _ => exact writes (onlyRails_moveRail ..) fun h => h.moveRail r rfl
  | suspend b =>
    refine writes (onlyRails_setSuspended s b) fun h => h.congr (onlyRails_setSuspended s b).records (fun q => ?_) fun q => ?_
    all_goals
      rw [State.rail_setSuspended]
      split <;> rfl
  | sides w u => exact same rfl rfl rfl
  | supply st timer => exact same rfl rfl rfl
  | evaluate v hc =>
    intro _
    rw [evaluateSupply_eq]
    refine (hs hc).congr rfl (fun q => ?_) fun q => ?_
    all_goals
      rw [← evaluateSupply_eq, rail_evaluateSupply]
  | restart => exact writes (onlyRails_restartRails s) HoldsExact.restartRails
  | commit v _ _ =>
    intro _
    refine holdsExact_of_idle (fun q => ?_) fun q => ?_
    all_goals
      rw [rail_evaluateSupply, rail_activated]
      rfl
  | tick =>
    intro hc
    have hl : s.tickTimers.lifecycle = s.lifecycle := by rw [State.tickTimers_eq]
    have hr : s.tickTimers.records = s.records := by rw [State.tickTimers_eq]
    exact (hs (hl ▸ hc)).congr hr (fun q => by rw [State.rail_tickTimers]) fun q => by rw [State.rail_tickTimers]
  | powerOn =>
    intro hc
    rw [powerOnReset_eq] at hc
    cases hc

theorem Acts.holds {s t : State} (h : Acts s t) (hs : HoldsExact s) (hc : t.lifecycle = .committed) : HoldsExact t :=
  h.keep (I := fun u => u.lifecycle = .committed → HoldsExact u) (fun _ _ ha => ha.holds) (fun _ => hs) hc

end Sys2Proof.Machine
end

/-! ### Before COMMIT nothing moves (R49, R89, R126, R163) -/

section
namespace Sys2Proof.Machine

/-- The runtime values of a part before COMMIT: no rail claimed or out of OFF, nothing budgeted, the supply monitor idle, no event
recorded. -/
structure Idle (s : State) : Prop where
  rails : ∀ r : Rail, s.rail r = (s.rail r).activated
  allocated : s.allocated = 0
  limit : s.limit = 0
  queue : s.budgetQueue = []
  supply : s.supply = .powerOn
  outstanding : ∀ (l : Link) (r : Rail), s.outstanding l r = none
  events : ∀ l : Link, (s.session l).queue = []

theorem idleBeforeCommit_iff (s : State) : IdleBeforeCommit s ↔ (s.lifecycle = .uncommitted → Idle s) := by
  unfold IdleBeforeCommit
  refine imp_congr_right fun _ => ⟨?_, ?_⟩
  · rintro ⟨hrails, hallocated, hlimit, hqueue, hsupply, hsessions⟩
    exact ⟨hrails, hallocated, hlimit, hqueue, hsupply, fun l => (hsessions l).1, fun l => (hsessions l).2⟩
  · rintro ⟨hrails, hallocated, hlimit, hqueue, hsupply, houtstanding, hevents⟩
    exact ⟨hrails, hallocated, hlimit, hqueue, hsupply, fun l => ⟨houtstanding l, hevents l⟩⟩

section
variable {s : State} (hs : Idle s)
include hs

theorem Idle.state (r : Rail) : (s.rail r).state = .off := by
  rw [hs.rails r]
  rfl

theorem Idle.target (r : Rail) : (s.rail r).target = 0 := by
  rw [hs.rails r]
  rfl

theorem Idle.timer (r : Rail) : (s.rail r).timer = .stopped := by
  rw [hs.rails r]
  rfl

theorem Idle.claim (l : Link) (r : Rail) : s.claim l r = 0 := by
  rw [State.claim, hs.rails r]
  exact get_replicate ..

theorem Idle.isHeld (r : Rail) : (s.rail r).isHeld = false := by
  rw [hs.rails r]
  rfl

theorem Idle.holds : HoldsExact s :=
  holdsExact_of_idle hs.state fun q => by
    rw [hs.rails q]
    rfl

theorem Idle.claimDemand (r : Rail) : (s.rail r).claimDemand = 0 := by
  rw [hs.rails r]
  rfl

theorem Idle.targetFor (r : Rail) : s.targetFor r = 0 := by
  have hdemand : (s.rail r).effectiveDemand = 0 := by
    unfold RailRuntime.effectiveDemand
    rw [hs.claimDemand, ite_self]
  unfold State.targetFor RailRuntime.demandedTarget
  rw [hdemand, hs.isHeld]
  exact ite_self 0

theorem Idle.requestOf (r : Rail) : s.requestOf r = none := by
  have hready : s.ready r = false := by simp [State.ready, hs.state]
  simp [State.requestOf, hready, hs.state]

theorem Idle.takeTarget (r : Rail) (log : List Announcement) : takeTarget r ⟨s, log⟩ = ⟨s, log⟩ := by
  unfold Machine.takeTarget
  dsimp only
  rw [if_pos ((hs.targetFor r).trans (hs.target r).symm)]

theorem Idle.takeDeferredOff (r : Rail) (log : List Announcement) : takeDeferredOff r ⟨s, log⟩ = ⟨s, log⟩ := by
  unfold Machine.takeDeferredOff
  dsimp only
  rw [if_neg fun h => by rw [hs.state] at h; cases h.1]

theorem Idle.settle (log : List Announcement) : settle ⟨s, log⟩ = ⟨s, log⟩ := by
  unfold Machine.settle
  generalize State.childFirst _ = rs
  induction rs with
  | nil => rfl
  | cons a rs ih => rw [List.foldl_cons, hs.takeTarget, hs.takeDeferredOff, ih]

theorem Idle.reconcile : s.reconcile = s := by
  unfold State.reconcile
  rw [hs.queue]
  exact congrArg (fun q => ({ s with budgetQueue := q } : State)) hs.queue.symm

theorem Idle.newRequest (r : Rail) : s.newRequest r = none := by
  unfold State.newRequest
  rw [hs.requestOf, ite_self]

theorem Idle.zeroRequest : s.zeroRequest = none := by
  unfold State.zeroRequest
  refine List.findSome?_eq_none_iff.mpr fun r _ => ?_
  rw [hs.newRequest]

theorem Idle.placeRequests : s.placeRequests = s := by
  have hplace : ∀ r, s.placeRequest r = s := fun r => by
    unfold State.placeRequest
    rw [hs.newRequest]
  unfold State.placeRequests
  induction allRails with
  | nil => rfl
  | cons a rs ih => rw [List.foldl_cons, hplace, ih]

theorem Idle.grantRound (before : State) (log : List Announcement) : grantRound before ⟨s, log⟩ = (⟨s, log⟩, false) := by
  unfold Machine.grantRound
  dsimp only
  rw [hs.reconcile, hs.zeroRequest]
  dsimp only
  rw [hs.placeRequests, hs.queue]

theorem Idle.arbitrate (before : State) (n : Nat) (log : List Announcement) : arbitrate before n ⟨s, log⟩ = ⟨s, log⟩ := by
  cases n with
  | zero => rfl
  | succ n =>
    unfold Machine.arbitrate repeatRounds
    rw [hs.grantRound]

/-- Before COMMIT an event without announcements changes nothing. -/
theorem Idle.railTurn (reserve : Option Link) : railTurn reserve [] ⟨s, []⟩ = s := by
  have hevent : railEvent ⟨s, []⟩ = ⟨s, []⟩ := by
    unfold railEvent
    rw [hs.settle]
    rfl
  unfold Machine.railTurn conclude
  rw [hevent]
  dsimp only
  rw [hs.arbitrate]
  rfl

end

/-- What `Idle` says, said of a state that differs in nothing that it speaks of. -/
theorem Idle.congr {s t : State} (hs : Idle s) (hrails : ∀ r, t.rail r = (t.rail r).activated)
    (hallocated : t.allocated = s.allocated) (hlimit : t.limit = s.limit) (hqueue : t.budgetQueue = s.budgetQueue)
    (hsupply : t.supply = s.supply) (houtstanding : ∀ l r, t.outstanding l r = none)
    (hevents : ∀ l, (t.session l).queue = []) : Idle t :=
  ⟨hrails, hallocated.trans hs.allocated, hlimit.trans hs.limit, hqueue.trans hs.queue, hsupply.trans hs.supply,
    houtstanding, hevents⟩

/-- A write to one session that leaves its table and queue empty. -/
theorem Idle.modSession {s : State} (hs : Idle s) (l : Link) {f : Session → Session}
    (htable : ∀ r, (f (s.session l)).table.get r = none) (hqueue : (f (s.session l)).queue = []) :
    Idle (s.modSession l f) := by
  refine hs.congr hs.rails rfl rfl rfl rfl (fun m r => ?_) fun m => ?_
  · unfold State.outstanding
    rw [State.session_modSession]
    split
    · exact htable r
    · exact hs.outstanding m r
  · rw [State.session_modSession]
    split
    · exact hqueue
    · exact hs.events m

theorem Idle.modLink {s : State} (hs : Idle s) (l : Link) (f : LinkPort → LinkPort) : Idle (s.modLink l f) :=
  hs.congr hs.rails rfl rfl rfl rfl hs.outstanding hs.events

theorem Idle.respond {s : State} (hs : Idle s) (l : Link) (tag : Byte) (st : Status) (data : List Byte) :
    Idle (s.respond l tag st data) := hs.modLink l _

theorem Idle.withSense {s : State} (hs : Idle s) (v : Nat) : Idle { s with sense := v } :=
  hs.congr hs.rails rfl rfl rfl rfl hs.outstanding hs.events

theorem Idle.withTimestamp {s : State} (hs : Idle s) (n : BitVec 16) : Idle { s with timestamp := n } :=
  hs.congr hs.rails rfl rfl rfl rfl hs.outstanding hs.events

theorem Idle.renewLease {s : State} (hs : Idle s) (l : Link) : Idle (s.renewLease l) := by
  unfold State.renewLease
  split
  · exact hs.modSession l (hs.outstanding l) (hs.events l)
  · exact hs

/-- Clearing a session's claims finds none before COMMIT. -/
theorem Idle.without {s : State} (hs : Idle s) (l : Link) (st : SessionState) : Idle (s.without l st) := by
  have hsession : ∀ m, (s.without l st).session m = if m = l then (s.session l).gone st else s.session m :=
    fun m => get_set ..
  refine hs.congr (fun r => ?_) rfl rfl rfl rfl (fun m r => ?_) fun m => ?_
  · have hr : (s.without l st).rail r = { s.rail r with claims := (s.rail r).claims.set l.val 0 l.isLt } := get_map ..
    have hclaims : (s.rail r).claims.set l.val 0 l.isLt = (s.rail r).claims := by
      refine vector_eq_of_get fun m => ?_
      rw [get_set]
      split
      · next hm => rw [hm]; exact (hs.claim l r).symm
      · rfl
    have hsame : (s.without l st).rail r = s.rail r := by
      rw [hr, hclaims]
    rw [hsame]
    exact hs.rails r
  · unfold State.outstanding
    rw [hsession]
    split
    · exact get_replicate ..
    · exact hs.outstanding m r
  · rw [hsession]
    split
    · rfl
    · exact hs.events m

theorem Idle.teardown {s : State} (hs : Idle s) (l : Link) (st : SessionState) : Idle (teardown l st s) := by
  rw [teardown_eq, (hs.without l st).railTurn]
  exact hs.without l st

/-- The common path of a request before COMMIT. -/
theorem Idle.serve {s : State} (hs : Idle s) {k : Kind} {l : Link} {f : Frame} {body : State → Answer}
    (h : ∀ t : State, Idle t → t.lifecycle = s.lifecycle → lifecycleRefusal k t.lifecycle = none →
      ((body t).st.lifecycle = .uncommitted → Idle (body t).st))
    (ht : (s.serve k l f body).lifecycle = .uncommitted) : Idle (s.serve k l f body) := by
  revert ht
  unfold State.serve
  split
  · split
    · exact fun _ => hs.respond ..
    · split
      · exact fun _ => hs.respond ..
      · dsimp only
        split
        · exact fun _ => (hs.renewLease l).respond ..
        · next hl => exact fun ht => (h _ (hs.renewLease l) (s.renewLease_lifecycle l) hl ht).respond ..
  · exact fun _ => hs

/-- Before COMMIT the requests that work on rails are refused (R164). -/
theorem lifecycleRefusal_ne_none {k : Kind} {x : Lifecycle} (hk : k = .claim ∨ k = .release ∨ k = .clearFault)
    (hx : x = .uncommitted) : lifecycleRefusal k x ≠ none := by
  rw [hx, lifecycleRefusal, if_pos hk]
  nofun

theorem evaluateSupply_lifecycle (v : Nat) (s : State) : (evaluateSupply v s).lifecycle = s.lifecycle := by
  rw [evaluateSupply_eq]

theorem State.activated_lifecycle (s : State) : s.activated.lifecycle = .committed := (onlyRails_modRails _ _).lifecycle

/-- COMMIT on the state with its rails and its arbiter activated. -/
theorem commitTaken_eq (v : Nat) (s : State) :
    commitTaken v s =
      if (evaluateSupply v s.activated).supply.state = .normal then evaluateSupply v s.activated
      else deliver none [.supplyChanged (evaluateSupply v s.activated).supply.state] (evaluateSupply v s.activated) := rfl

theorem commitTaken_lifecycle (v : Nat) (s : State) : (commitTaken v s).lifecycle = .committed := by
  have hevaluated : (evaluateSupply v s.activated).lifecycle = .committed := by
    rw [evaluateSupply_lifecycle, State.activated_lifecycle]
  rw [commitTaken_eq]
  split
  · exact hevaluated
  · rw [(heard_deliver none _ _).rest]
    exact hevaluated

theorem Idle.commitAnswer {s : State} (hs : Idle s) (v : Nat) (ht : (commitAnswer v s).st.lifecycle = .uncommitted) :
    Idle (commitAnswer v s).st := by
  unfold Machine.commitAnswer at ht ⊢
  split at ht
  · exact hs
  · dsimp only at ht
    rw [commitTaken_lifecycle] at ht
    cases ht

theorem Idle.fetchAnswer {s : State} (hs : Idle s) (l : Link) : Idle (fetchAnswer l s).st := by
  unfold Machine.fetchAnswer
  dsimp only
  rw [hs.events l]
  exact hs.modSession l (f := fun y => { y with lost := 0 }) (hs.outstanding l) (hs.events l)

theorem Idle.attachAnswer {s : State} (hs : Idle s) (l : Link) (f : Frame) : Idle (attachAnswer l f s).st := by
  unfold Machine.attachAnswer
  dsimp only
  split
  · exact hs
  · exact hs.modSession l (f := fun x => { x with
      state := .attached
      leaseLength := argByte f 0
      leaseTimer := .running ((argByte f 0).toNat * Config.leaseUnit)
      mask := parseMask (argByte f 1) }) (hs.outstanding l) (hs.events l)

theorem Idle.detachAnswer {s : State} (hs : Idle s) (l : Link) : Idle (detachAnswer l s).st := by
  unfold Machine.detachAnswer
  split
  · dsimp only
    exact hs.teardown l .detached
  · dsimp only
    exact hs.modSession l (f := fun x => { x with state := .detached }) (hs.outstanding l) (hs.events l)

theorem Idle.writeRailAnswer {s : State} (hs : Idle s) (f : Frame) : Idle (writeRailAnswer f s).st := by
  unfold Machine.writeRailAnswer
  split
  · split
    · exact hs.congr hs.rails rfl rfl rfl rfl hs.outstanding hs.events
    · exact hs
  · exact hs

theorem Idle.queryRailAnswer {s : State} (hs : Idle s) (l : Link) (f : Frame) : Idle (queryRailAnswer l f s).st := by
  unfold Machine.queryRailAnswer
  split <;> exact hs

theorem Idle.readRailAnswer {s : State} (hs : Idle s) (f : Frame) : Idle (readRailAnswer f s).st := by
  unfold Machine.readRailAnswer
  split <;> exact hs

theorem Idle.pgChange {s : State} (hs : Idle s) (hu : s.lifecycle = .uncommitted) (r : Rail) (level : Line) :
    Idle (pgChange r level s) := by
  unfold Machine.pgChange
  dsimp only
  split
  · exact hs
  · have hpg : Idle (s.modRail r fun x => { x with pg := level }) := by
      refine hs.congr (fun q => ?_) rfl rfl rfl rfl hs.outstanding hs.events
      rw [State.rail_modRail]
      split
      · rw [hs.rails r]
        rfl
      · exact hs.rails q
    rw [if_neg]
    · exact hpg
    · rintro ⟨hactive, -⟩
      simp [State.activeRail, hu] at hactive

theorem Idle.restartRails {s : State} (hs : Idle s) : Idle s.restartRails := by
  have hcleared : ∀ r, s.clearedRails.rail r = s.rail r := fun r => by
    rw [s.rail_clearedRails, hs.rails r]
    rfl
  have hclearedEq : s.clearedRails = s := by
    have hrails : (s.modRails fun _ => RailRuntime.cleared) = s := by
      rw [State.modRails_eq]
      have h : (Vector.ofFn fun r => (s.rail r).cleared) = s.rails := vector_eq_of_get fun r => by
        rw [get_ofFn]
        exact (s.rail_clearedRails r).symm.trans (hcleared r)
      rw [h]
    unfold State.clearedRails
    rw [hrails]
    exact congrArg (fun q => ({ s with budgetQueue := q } : State)) hs.queue.symm
  have hdrain : s.drainRunning .restart = s := by
    have h : ∀ rs : List Rail,
        rs.foldl (fun t r => if (t.rail r).state.running then t.enterDraining r .restart else t) s = s := by
      intro rs
      induction rs with
      | nil => rfl
      | cons a rs ih => rw [List.foldl_cons, hs.state a, if_neg (by decide), ih]
    exact h allRails
  have hidle : ∀ rs : List Rail, rs.foldl State.restartIdle s = s := by
    intro rs
    induction rs with
    | nil => rfl
    | cons a rs ih =>
      rw [List.foldl_cons, State.restartIdle, if_neg (by rw [hs.state a]; decide), ih]
  rw [State.restartRails_eq, hclearedEq, hdrain, hidle]
  exact hs

theorem Idle.forgetMasters {s : State} (hs : Idle s) : Idle s.forgetMasters := by
  unfold State.forgetMasters
  have hstart : Idle { s with timestamp := 0, resetn := .low } :=
    hs.congr hs.rails rfl rfl rfl rfl hs.outstanding hs.events
  have hfold : ∀ (ls : List Link) (t : State), Idle t → Idle (ls.foldl (fun t l =>
      (t.modSession l fun x => x.tornDown .detached).modLink l fun x => { x with receiver := x.receiver.atWarmReset }) t) := by
    intro ls
    induction ls with
    | nil => exact fun _ ht => ht
    | cons a ls ih => exact fun t ht => ih _ ((ht.modSession a (fun r => get_replicate ..) rfl).modLink a _)
  exact hfold allLinks _ hstart

theorem forgetMasters_lifecycle (s : State) : s.forgetMasters.lifecycle = s.lifecycle := by
  unfold State.forgetMasters
  have hfold : ∀ (ls : List Link) (t : State), (ls.foldl (fun t l =>
      (t.modSession l fun x => x.tornDown .detached).modLink l fun x => { x with receiver := x.receiver.atWarmReset })
        t).lifecycle = t.lifecycle := by
    intro ls
    induction ls with
    | nil => exact fun _ => rfl
    | cons a ls ih => exact fun t => (ih _).trans rfl
  exact hfold allLinks _

theorem Idle.warmReset {s : State} (hs : Idle s) (hu : s.lifecycle = .uncommitted) (v : Nat) : Idle (warmReset v s) := by
  unfold Machine.warmReset
  split
  · exact hs.withSense v
  · have hrestarted : Idle s.forgetMasters.restartRails := hs.forgetMasters.restartRails
    have hlife : s.forgetMasters.restartRails.lifecycle = .uncommitted := by
      rw [(onlyRails_restartRails _).lifecycle, forgetMasters_lifecycle, hu]
    have hsupply : restartSupply v s.forgetMasters.restartRails = { s.forgetMasters.restartRails with sense := v } := by
      generalize s.forgetMasters.restartRails = m at hlife
      unfold restartSupply
      exact if_neg (by rw [hlife]; decide)
    rw [hsupply, (hrestarted.withSense v).railTurn]
    exact hrestarted.withSense v

theorem idle_reset : Idle State.reset where
  rails r := by
    rw [State.rail_reset]
    rfl
  allocated := rfl
  limit := rfl
  queue := rfl
  supply := rfl
  outstanding l r := by
    rw [State.outstanding, State.session_reset]
    exact get_replicate ..
  events l := by
    rw [State.session_reset]
    rfl

theorem idle_powerOnReset (s : State) : Idle (powerOnReset s) := by
  have hreset := idle_reset
  rw [powerOnReset_eq]
  exact hreset.congr hreset.rails rfl rfl rfl rfl hreset.outstanding hreset.events

theorem State.session_tickTimers (s : State) (l : Link) :
    s.tickTimers.session l = { s.session l with leaseTimer := (s.session l).leaseTimer.tick } := by
  rw [State.tickTimers_eq]
  exact get_map ..

theorem Idle.tickTimers {s : State} (hs : Idle s) : Idle s.tickTimers := by
  refine hs.congr (fun r => ?_) ?_ ?_ ?_ ?_ (fun l r => ?_) fun l => ?_
  · rw [State.rail_tickTimers, hs.rails r]
    rfl
  · rw [State.tickTimers_eq]
  · rw [State.tickTimers_eq]
  · rw [State.tickTimers_eq]
  · rw [State.tickTimers_eq, hs.supply]
    rfl
  · rw [State.outstanding, State.session_tickTimers]
    exact hs.outstanding l r
  · rw [State.session_tickTimers]
    exact hs.events l

theorem Idle.grantHead {s : State} (hs : Idle s) (r : Rail) (k : GrantKind) : grantHead r k s = s := by
  unfold Machine.grantHead
  rw [hs.reconcile, hs.queue]

theorem Idle.csnFall {s : State} (hs : Idle s) (l : Link) : Idle (csnFall l s) := by
  unfold Machine.csnFall
  split
  · exact hs
  · exact hs.modLink l _

theorem Idle.csnRise {s : State} (hs : Idle s) (l : Link) : Idle (csnRise l s) := by
  unfold Machine.csnRise
  split
  · exact hs
  · exact hs.modLink l _

theorem Idle.responseEnd {s : State} (hs : Idle s) (l : Link) : Idle (responseEnd l s) := by
  unfold Machine.responseEnd
  split
  · exact hs.modLink l _
  · exact hs

theorem Idle.linkReset {s : State} (hs : Idle s) (l : Link) : Idle (linkReset l s) := by
  unfold Machine.linkReset
  split
  · exact hs
  · exact (hs.modLink l _).teardown l .detached

theorem Idle.linkResetRelease {s : State} (hs : Idle s) (l : Link) : Idle (linkResetRelease l s) := by
  unfold Machine.linkResetRelease
  split
  · exact hs
  · exact hs.modLink l _

section
variable {s : State} (hs : Idle s)
include hs

theorem Idle.not_state {r : Rail} {x : RailState} (hx : x ≠ .off) : (s.rail r).state ≠ x := by
  rw [hs.state r]
  exact hx.symm

theorem Idle.rampExpiry (r : Rail) : rampExpiry r s = s :=
  if_neg fun h => hs.not_state (by decide) h.1

theorem Idle.slewExpiry (r : Rail) : slewExpiry r s = s :=
  if_neg fun h => hs.not_state (by decide) h.1

theorem Idle.drainExpiry (r : Rail) : drainExpiry r s = s :=
  if_neg fun h => hs.not_state (by decide) h.1

theorem Idle.deferredOffTaken (r : Rail) : deferredOffTaken r s = s :=
  if_neg fun h => hs.not_state (by decide) h.1

theorem Idle.inactive : ¬ (s.supply.active = true) := by
  rw [hs.supply]
  exact nofun

theorem Idle.fallBelowWarn : fallBelowWarn s = s := if_neg fun h => hs.inactive h.1

theorem Idle.fallBelowCrit : fallBelowCrit s = s := if_neg fun h => hs.inactive h.1

theorem Idle.riseAboveCritBand : riseAboveCritBand s = s := if_neg fun h => hs.inactive h.1

theorem Idle.riseAboveWarnBand : riseAboveWarnBand s = s := if_neg fun h => hs.inactive h.1

theorem Idle.holdoffExpiry : holdoffExpiry s = s := if_neg fun h => hs.inactive h.1

/-- A request that works on rails is refused before COMMIT, so what it would do is left open. -/
theorem Idle.serve_railRequest (hu : s.lifecycle = .uncommitted) {k : Kind} {l : Link} {f : Frame} {body : State → Answer}
    (hk : k = .claim ∨ k = .release ∨ k = .clearFault) (ht : (s.serve k l f body).lifecycle = .uncommitted) :
    Idle (s.serve k l f body) :=
  hs.serve (fun _ _ hlife hpass _ => absurd hpass (lifecycleRefusal_ne_none hk (hlife.trans hu))) ht

end

/-- While the part is UNCOMMITTED and nothing runs, every command that leaves it UNCOMMITTED leaves nothing running. -/
theorem Idle.exec {s t : State} {c : Instr} (hs : Idle s) (hu : s.lifecycle = .uncommitted) (h : exec c s = .next t)
    (ht : t.lifecycle = .uncommitted) : Idle t := by
  cases c with
  | attach l f => cases h; exact hs.serve (fun t ht _ _ _ => ht.attachAnswer l f) ht
  | detach l f => cases h; exact hs.serve (fun t ht _ _ _ => ht.detachAnswer l) ht
  | renew l f => cases h; exact hs.serve (fun t ht _ _ _ => ht) ht
  | claim l f => cases h; exact hs.serve_railRequest hu (.inl rfl) ht
  | releaseWithoutWait l f => cases h; exact hs.serve_railRequest hu (.inr (.inl rfl)) ht
  | releaseWithWait l f => cases h; exact hs.serve_railRequest hu (.inr (.inl rfl)) ht
  | clearFault l f => cases h; exact hs.serve_railRequest hu (.inr (.inr rfl)) ht
  | fetchEvent l f => cases h; exact hs.serve (fun t ht _ _ _ => ht.fetchAnswer l) ht
  | queryRail l f => cases h; exact hs.serve (fun t ht _ _ _ => ht.queryRailAnswer l f) ht
  | queryPart l f => cases h; exact hs.serve (fun t ht _ _ _ => ht) ht
  | writeRail l f => cases h; exact hs.serve (fun t ht _ _ _ => ht.writeRailAnswer f) ht
  | writePart l f =>
    cases h
    exact hs.serve (fun t ht _ _ _ => ht.congr ht.rails rfl rfl rfl rfl ht.outstanding ht.events) ht
  | readRail l f => cases h; exact hs.serve (fun t ht _ _ _ => ht.readRailAnswer f) ht
  | readPart l f => cases h; exact hs.serve (fun t ht _ _ _ => ht) ht
  | commit l f v => cases h; exact (hs.withSense v).serve (fun t ht _ _ hu => ht.commitAnswer v hu) ht
  | frameDiscard l => cases h; exact hs.csnRise l
  | pgChangeTaken r level => cases h; exact hs.pgChange hu r level
  | rampTimeExpiry r => cases h; rw [hs.rampExpiry]; exact hs
  | slewTimeExpiry r => cases h; rw [hs.slewExpiry]; exact hs
  | drainTimeExpiry r => cases h; rw [hs.drainExpiry]; exact hs
  | deferredOff r => cases h; rw [hs.deferredOffTaken]; exact hs
  | startGrant r => cases h; rw [hs.grantHead]; exact hs
  | raiseGrant r => cases h; rw [hs.grantHead]; exact hs
  | holdoffExpiry => cases h; rw [hs.holdoffExpiry]; exact hs
  | leaseExpiry l =>
    cases h
    split
    · exact hs.teardown l .expired
    · exact hs
  | fallBelowWarn v => cases h; rw [(hs.withSense v).fallBelowWarn]; exact hs.withSense v
  | fallBelowCrit v => cases h; rw [(hs.withSense v).fallBelowCrit]; exact hs.withSense v
  | riseAboveCritBand v => cases h; rw [(hs.withSense v).riseAboveCritBand]; exact hs.withSense v
  | riseAboveWarnBand v => cases h; rw [(hs.withSense v).riseAboveWarnBand]; exact hs.withSense v
  | linkReset l => cases h; exact hs.linkReset l
  | linkResetRelease l => cases h; exact hs.linkResetRelease l
  | warmReset v => cases h; exact hs.warmReset hu v
  | warmResetRelease => cases h; exact hs.congr hs.rails rfl rfl rfl rfl hs.outstanding hs.events
  | powerOnReset => cases h; exact idle_powerOnReset s
  | timestampTick =>
    cases h
    exact hs.tickTimers.withTimestamp _
  | csnFall l => cases h; exact hs.csnFall l
  | responseEnd l => cases h; exact hs.responseEnd l
  | csnRise l => cases h; exact hs.csnRise l

end Sys2Proof.Machine
end

/-! ### What a command writes itself, and what follows from it -/

section
namespace Sys2Proof.Machine

/-- From `s` to `t` the rails, the arbiter and the sessions have reacted, a response may have been handed to a link, and the pins of
the board may stand at other levels. -/
structure Follows (s t : State) : Prop where
  rest : t =
    { s with
      rails := t.rails, sessions := t.sessions, allocated := t.allocated, budgetQueue := t.budgetQueue, links := t.links
      sense := t.sense, resetn := t.resetn }
  claims : ∀ r : Rail, (t.rail r).claims = (s.rail r).claims
  pg : ∀ r : Rail, (t.rail r).pg = (s.rail r).pg
  faulted : ∀ r : Rail, (s.rail r).state = .fault →
    t.rail r = { s.rail r with target := (t.rail r).target, holdSet := (t.rail r).holdSet }

theorem Follows.refl (s : State) : Follows s s := ⟨rfl, fun _ => rfl, fun _ => rfl, fun _ _ => rfl⟩

theorem Follows.trans {s t u : State} (h : Follows s t) (h' : Follows t u) : Follows s u where
  rest := by rw [h'.rest, h.rest]
  claims r := (h'.claims r).trans (h.claims r)
  pg r := (h'.pg r).trans (h.pg r)
  faulted r hr := by
    have ht := h.faulted r hr
    rw [h'.faulted r (by rw [ht]; exact hr), ht]

theorem Reaction.follows {s t : State} (h : Reaction s t) : Follows s t :=
  ⟨by rw [h.rest], h.claims, h.pg, h.faulted⟩

/-- Writes beside the rails. -/
theorem Follows.beside {s t : State}
    (h : t = { s with sessions := t.sessions, links := t.links, sense := t.sense, resetn := t.resetn }) : Follows s t where
  rest := by rw [h]
  claims r := by rw [h]; rfl
  pg r := by rw [h]; rfl
  faulted r _ := by rw [h]; rfl

theorem Follows.of_railsReact {s t : State} (ho : OnlyRails s t) (h : RailsReact s t) : Follows s t where
  rest := by rw [ho]
  claims r := (h r).claims
  pg r := (h r).pg
  faulted r := (h r).faulted

theorem follows_resolve (s : State) (l : Link) (r : Rail) (code : EventCode) (level : Nat) (d : Detail) :
    Follows s (s.resolve l r code level d) := by
  rcases s.resolve_cases l r code level d with ⟨-, he⟩ | ⟨o, -, he⟩
  · rw [he]
    exact .refl s
  · rw [he]
    exact .beside rfl

theorem follows_railTurn (reserve : Option Link) (lead log : List Announcement) (s : State) :
    Follows s (railTurn reserve lead ⟨s, log⟩) := (reaction_railTurn reserve lead ⟨s, log⟩).follows

theorem railsReact_enterOn {s : State} {r : Rail} (h : (s.rail r).state.free) : RailsReact s (s.enterOn r) := by
  have move {t : State} (ht : (t.rail r).state.free) : RailsReact t (t.moveRail r fun x =>
      { x with state := .on, timer := .stopped, slewOrigin := none }) := railsReact_moveRail_of_free ht rfl
  unfold State.enterOn
  dsimp only
  split
  · exact (railsReact_giveBack h.1 _).trans (move (by rwa [State.state_giveBack]))
  · exact move h

/-- A rail that reaches ON, with all that comes of it, is a reaction. -/
theorem reaction_reachOn {r : Rail} {s : State} (h : (s.rail r).state.free) : Reaction s (reachOn r s) := by
  have hon := onlyRails_enterOn s r
  have hreacts := railsReact_enterOn h
  have hfree : ((s.enterOn r).rail r).state.free := by
    rw [s.state_enterOn r]
    exact ⟨nofun, nofun⟩
  unfold reachOn
  dsimp only
  generalize s.enterOn r = s1 at hon hreacts hfree
  have honly := onlyRails_examineTarget r ⟨s1, [.enteredOn r (s1.rail r).level]⟩
  have hexamine := railsReact_examineTarget (e := ⟨s1, [.enteredOn r (s1.rail r).level]⟩) hfree
  generalize examineTarget r ⟨s1, [.enteredOn r (s1.rail r).level]⟩ = e at honly hexamine
  exact reaction_conclude none [] e.st s (railEvent e) ((hon.trans honly).trans (onlyRails_railEvent e))
    ((hreacts.trans hexamine).trans (railsReact_railEvent e))

theorem follows_reachOn {r : Rail} {s : State} (h : (s.rail r).state.free) : Follows s (reachOn r s) :=
  (reaction_reachOn h).follows

/-- An entry into FAULT from a state that is neither FAULT nor DRAINING, with all that comes of it, is a reaction. -/
theorem reaction_fail {r : Rail} (k : FaultKind) {s : State} (h : (s.rail r).state.free) : Reaction s (fail r k s) := by
  have ho := onlyRails_faultRail r k ⟨s, []⟩
  have hr := railsReact_faultRail k (e := ⟨s, []⟩) h
  unfold fail concludeGroup
  generalize faultRail r k ⟨s, []⟩ = e at ho hr
  exact reaction_conclude none e.log e.st s { e with log := [] } ho hr

theorem follows_fail {r : Rail} (k : FaultKind) {s : State} (h : (s.rail r).state.free) : Follows s (fail r k s) :=
  (reaction_fail k h).follows

/-- What the command itself writes, before the rails, the arbiter and the sessions react. -/
inductive Cause (s : State) : Instr → State → Prop where
  | nothing (c : Instr) : Cause s c s
  | claim (c : Instr) (l : Link) (f : Frame) (r : Rail) (v : Nat)
      (hc : c = .claim l f ∨ c = .releaseWithoutWait l f ∨ c = .releaseWithWait l f)
      (hr : (argByte f 0).toNat = r.val) : Cause s c (s.setClaim l r v)
  | without (c : Instr) (l : Link) (st : SessionState)
      (hc : (∃ f, c = .detach l f) ∨ c = .leaseExpiry l ∨ c = .linkReset l) : Cause s c (s.without l st)
  | clear (l : Link) (f : Frame) (r : Rail) (hr : (argByte f 0).toNat = r.val) (hclaim : s.claim l r ≠ 0)
      (hlatch : (s.rail r).faultLatch = true) :
      Cause s (.clearFault l f)
        (s.moveRail r fun y =>
          { y with faultLatch := false, level := 0, state := if y.target = 0 then .off else .waiting })
  | record (l : Link) (f : Frame) (r : Rail) (x : RailRecord) (hu : s.lifecycle = .uncommitted) :
      Cause s (.writeRail l f) (s.setRecord r x)
  | part (l : Link) (f : Frame) (p : PartRecord) (hu : s.lifecycle = .uncommitted) :
      Cause s (.writePart l f) { s with part := p }
  | commit (l : Link) (f : Frame) (v : Nat) (hu : s.lifecycle = .uncommitted) :
      Cause s (.commit l f v) (evaluateSupply v s.activated)
  | pg (r : Rail) (level : Line) : Cause s (.pgChangeTaken r level) (s.modRail r fun x => { x with pg := level })
  | stuck (r : Rail) (hs : (s.rail r).state = .draining) : Cause s (.drainTimeExpiry r) (s.enterFault r .drainStuck)
  | finish (r : Rail) (hs : (s.rail r).state = .draining) :
      Cause s (.drainTimeExpiry r) (s.modRail r fun x => { x with timer := .stopped, drainFinished := true })
  | supplied (c : Instr) (m : State) (hrest : m = { s with supply := m.supply, limit := m.limit, rails := m.rails })
      (hrails : ∀ r, m.rail r = { s.rail r with suspended := (m.rail r).suspended }) : Cause s c m
  | warm (v : Nat) (m : State)
      (hrest : m =
        { s with
          timestamp := 0
          rails := m.rails, allocated := m.allocated, budgetQueue := m.budgetQueue, supply := m.supply, limit := m.limit
          sessions := m.sessions, links := m.links, sense := m.sense, resetn := m.resetn })
      (hclaims : ∀ r, (m.rail r).claims = .replicate 4 0) (hpg : ∀ r, (m.rail r).pg = (s.rail r).pg) :
      Cause s (.warmReset v) m
  | powerOn : Cause s .powerOnReset (powerOnReset s)
  | tick : Cause s .timestampTick { s.tickTimers with timestamp := s.timestamp + 1 }

/-- Writes beside the rails. -/
def Beside (s t : State) : Prop := t = { s with sessions := t.sessions, links := t.links, sense := t.sense }

theorem Beside.refl (s : State) : Beside s s := rfl

theorem Beside.trans {s t u : State} (h : Beside s t) (h' : Beside t u) : Beside s u := by
  unfold Beside at *
  rw [h', h]

theorem Beside.rail {s t : State} (h : Beside s t) (r : Rail) : t.rail r = s.rail r := by
  rw [h]
  rfl

theorem Beside.follows {s t : State} (h : Beside s t) : Follows s t := .beside (by rw [h])

theorem beside_renewLease (s : State) (l : Link) : Beside s (s.renewLease l) := by
  unfold State.renewLease
  split
  · exact rfl
  · exact rfl

theorem beside_respond (s : State) (l : Link) (tag : Byte) (st : Status) (data : List Byte) :
    Beside s (s.respond l tag st data) := rfl

theorem beside_modSession (s : State) (l : Link) (f : Session → Session) : Beside s (s.modSession l f) := rfl

theorem beside_modLink (s : State) (l : Link) (f : LinkPort → LinkPort) : Beside s (s.modLink l f) := rfl

theorem beside_setOutstanding (s : State) (l : Link) (r : Rail) (o : Option Outstanding) :
    Beside s (s.setOutstanding l r o) := rfl

theorem beside_resolve (s : State) (l : Link) (r : Rail) (code : EventCode) (level : Nat) (d : Detail) :
    Beside s (s.resolve l r code level d) := by
  rcases s.resolve_cases l r code level d with ⟨-, he⟩ | ⟨o, -, he⟩
  · rw [he]
    rfl
  · rw [he]
    rfl

theorem beside_closeOutstanding (l : Link) (r : Rail) (code : EventCode) (s : State) :
    Beside s (closeOutstanding l r code s) := beside_resolve ..

theorem beside_setUp (l : Link) (r : Rail) (o : Outstanding) (outcome : Option (EventCode × Nat × Detail)) (s : State) :
    Beside s (setUp l r o outcome s) := by
  have hset := beside_setOutstanding s l r (some o)
  unfold setUp
  dsimp only
  split
  · exact hset.trans (beside_resolve ..)
  · exact hset

/-- From `s` to `t` the command `c` has written what is its own, and the rest has followed. -/
def Effect (c : Instr) (s t : State) : Prop := ∃ a m, Beside s a ∧ Cause a c m ∧ Follows m t

theorem Follows.effect {c : Instr} {s t : State} (h : Follows s t) : Effect c s t := ⟨s, s, .refl s, .nothing c, h⟩

theorem Cause.effect {c : Instr} {s m : State} (h : Cause s c m) : Effect c s m := ⟨s, m, .refl s, h, .refl m⟩

theorem Effect.refl (c : Instr) (s : State) : Effect c s s := (Follows.refl s).effect

theorem Effect.trans {c : Instr} {s t u : State} (h : Effect c s t) (h' : Follows t u) : Effect c s u := by
  obtain ⟨a, m, ha, hm, ht⟩ := h
  exact ⟨a, m, ha, hm, ht.trans h'⟩

theorem Effect.ahead {c : Instr} {s t u : State} (h : Beside s t) (h' : Effect c t u) : Effect c s u := by
  obtain ⟨a, m, ha, hm, ht⟩ := h'
  exact ⟨a, m, h.trans ha, hm, ht⟩

/-- The common path of a request, by what its own rules do to the state with the lease renewed. -/
theorem effect_serve {c : Instr} {s : State} {k : Kind} {l : Link} {f : Frame} {body : State → Answer}
    (h : ∀ t : State, lifecycleRefusal k t.lifecycle = none → Effect c t (body t).st) :
    Effect c s (s.serve k l f body) := by
  have hlease := beside_renewLease s l
  unfold State.serve
  split
  · split
    · exact (beside_respond ..).follows.effect
    · split
      · exact (beside_respond ..).follows.effect
      · dsimp only
        split
        · exact .ahead hlease (beside_respond ..).follows.effect
        · next hl => exact .ahead hlease ((h _ hl).trans (beside_respond ..).follows)
  · exact .refl c s

theorem effect_rewriteClaim {c : Instr} {l : Link} {f : Frame} {r : Rail} (reserve : Option Link) (v : Nat) (s : State)
    (hc : c = .claim l f ∨ c = .releaseWithoutWait l f ∨ c = .releaseWithWait l f) (hr : (argByte f 0).toNat = r.val) :
    Effect c s (rewriteClaim reserve l r v s) :=
  (Cause.claim (s := s) c l f r v hc hr).effect.trans (follows_railTurn reserve [] [] (s.setClaim l r v))

theorem effect_claimAnswer (l : Link) (f : Frame) (s : State) : Effect (.claim l f) s (claimAnswer l f s).st := by
  unfold claimAnswer
  split
  · exact .refl _ s
  · next r hr =>
    have hname := ((s.namedRail_eq_some_iff _ r).mp hr).1
    dsimp only
    split
    · exact .refl _ s
    · split
      · exact .refl _ s
      · dsimp only
        unfold claimTaken
        dsimp only
        refine .ahead (beside_closeOutstanding l r .superseded s) ?_
        exact (effect_rewriteClaim (some l) _ _ (.inl rfl) hname).trans (beside_setUp ..).follows

theorem effect_releaseAnswer {c : Instr} (l : Link) (f : Frame) (s : State)
    (hc : c = .claim l f ∨ c = .releaseWithoutWait l f ∨ c = .releaseWithWait l f) :
    Effect c s (releaseAnswer l f s).st := by
  unfold releaseAnswer
  split
  · exact .refl _ s
  · next r hr =>
    have hname := ((s.namedRail_eq_some_iff _ r).mp hr).1
    split
    · dsimp only
      unfold releaseNow
      dsimp only
      split
      · exact .ahead (beside_closeOutstanding l r .cancelled s) (effect_rewriteClaim none 0 _ hc hname)
      · exact effect_rewriteClaim none 0 s hc hname
    · split
      · split
        · exact .refl _ s
        · dsimp only
          unfold releaseWaiting
          dsimp only
          refine .ahead (beside_closeOutstanding l r .superseded s) ?_
          exact (effect_rewriteClaim (some l) 0 _ hc hname).trans (beside_setUp ..).follows
      · exact .refl _ s

theorem effect_clearFaultAnswer (l : Link) (f : Frame) (s : State) :
    Effect (.clearFault l f) s (clearFaultAnswer l f s).st := by
  unfold clearFaultAnswer
  split
  · exact .refl _ s
  · next r hr =>
    have hname := ((s.namedRail_eq_some_iff _ r).mp hr).1
    dsimp only
    split
    · exact .refl _ s
    · next hclaim =>
      split
      · exact .refl _ s
      · next hlatch =>
        split
        · exact .refl _ s
        · dsimp only
          unfold clearFaultTaken
          dsimp only
          exact (Cause.clear (s := s) l f r hname hclaim (Bool.of_not_eq_false hlatch)).effect.trans
            (follows_railTurn none [] _ _)

theorem effect_teardown {c : Instr} {l : Link} (st : SessionState) (s : State)
    (hc : (∃ f, c = .detach l f) ∨ c = .leaseExpiry l ∨ c = .linkReset l) : Effect c s (teardown l st s) :=
  (Cause.without (s := s) c l st hc).effect.trans (reaction_teardown l st s).follows

theorem effect_detachAnswer (l : Link) (f : Frame) (s : State) : Effect (.detach l f) s (detachAnswer l s).st := by
  unfold detachAnswer
  split
  · dsimp only
    exact effect_teardown .detached s (.inl ⟨f, rfl⟩)
  · dsimp only
    exact (beside_modSession s l _).follows.effect

theorem effect_attachAnswer (l : Link) (f : Frame) (s : State) : Effect (.attach l f) s (attachAnswer l f s).st := by
  unfold attachAnswer
  dsimp only
  split
  · exact .refl _ s
  · dsimp only
    exact (beside_modSession s l _).follows.effect

theorem effect_fetchAnswer (l : Link) (f : Frame) (s : State) : Effect (.fetchEvent l f) s (fetchAnswer l s).st := by
  unfold fetchAnswer
  dsimp only
  split
  · dsimp only
    exact (beside_modSession s l _).follows.effect
  · dsimp only
    exact (beside_modSession s l _).follows.effect

theorem effect_queryRailAnswer (l : Link) (f : Frame) (s : State) :
    Effect (.queryRail l f) s (queryRailAnswer l f s).st := by
  unfold queryRailAnswer
  split <;> exact .refl _ s

theorem effect_readRailAnswer (l : Link) (f : Frame) (s : State) :
    Effect (.readRail l f) s (readRailAnswer f s).st := by
  unfold readRailAnswer
  split <;> exact .refl _ s

theorem effect_writeRailAnswer (l : Link) (f : Frame) {s : State} (hu : s.lifecycle = .uncommitted) :
    Effect (.writeRail l f) s (writeRailAnswer f s).st := by
  unfold writeRailAnswer
  split
  · split
    · exact (Cause.record (s := s) l f _ _ hu).effect
    · exact .refl _ s
  · exact .refl _ s

theorem effect_commitAnswer (l : Link) (f : Frame) (v : Nat) {s : State} (hu : s.lifecycle = .uncommitted) :
    Effect (.commit l f v) s (commitAnswer v s).st := by
  have hcommit := (Cause.commit (s := s) l f v hu).effect
  unfold commitAnswer
  split
  · exact .refl _ s
  · dsimp only
    rw [commitTaken_eq]
    generalize evaluateSupply v s.activated = m at hcommit ⊢
    split
    · exact hcommit
    · exact hcommit.trans (.beside (by rw [(heard_deliver none _ m).rest]))

theorem effect_pgChange (r : Rail) (level : Line) (s : State) : Effect (.pgChangeTaken r level) s (pgChange r level s) := by
  have hpg := (Cause.pg (s := s) r level).effect
  have hstate : ((s.modRail r fun x => { x with pg := level }).rail r).state = (s.rail r).state := by simp
  unfold pgChange
  dsimp only
  split
  · exact .refl _ s
  · split
    · split
      · exact hpg.trans (follows_reachOn (by rw [hstate, ‹(s.rail r).state = .ramping›]; exact ⟨nofun, nofun⟩))
      · exact hpg.trans (follows_fail .pgLost (by rw [hstate, ‹(s.rail r).state = .on›]; exact ⟨nofun, nofun⟩))
      · exact hpg
    · exact hpg

theorem effect_rampExpiry (r : Rail) (s : State) : Effect (.rampTimeExpiry r) s (rampExpiry r s) := by
  unfold rampExpiry
  split
  · next h =>
    have hfree : (s.rail r).state.free := by
      rw [h.1]
      exact ⟨nofun, nofun⟩
    split
    · exact (follows_fail .rampTimeout hfree).effect
    · exact (follows_reachOn hfree).effect
  · exact .refl _ s

theorem effect_slewExpiry (r : Rail) (s : State) : Effect (.slewTimeExpiry r) s (slewExpiry r s) := by
  unfold slewExpiry
  split
  · next h =>
    have hfree : (s.rail r).state.free := by
      rw [h.1]
      exact ⟨nofun, nofun⟩
    split
    · exact (follows_fail .slewFail hfree).effect
    · exact (follows_reachOn hfree).effect
  · exact .refl _ s

/-- The rest of an entry into FAULT, after the rail's own changes. -/
theorem reaction_fail_enterFault (r : Rail) (k : FaultKind) (s : State) : Reaction (s.enterFault r k) (fail r k s) := by
  have ho : OnlyRails (s.enterFault r k) (faultRail r k ⟨s, []⟩).st :=
    (onlyRails_cascade k _ _ ⟨s.enterFault r k, _⟩).trans (onlyRails_settleAfter _)
  have hr : RailsReact (s.enterFault r k) (faultRail r k ⟨s, []⟩).st :=
    (railsReact_cascade k _ _ ⟨s.enterFault r k, _⟩).trans (railsReact_settleAfter _)
  unfold fail concludeGroup
  generalize faultRail r k ⟨s, []⟩ = e at ho hr
  exact reaction_conclude none e.log e.st _ { e with log := [] } ho hr

theorem follows_fail_enterFault (r : Rail) (k : FaultKind) (s : State) : Follows (s.enterFault r k) (fail r k s) :=
  (reaction_fail_enterFault r k s).follows

theorem effect_drainExpiry (r : Rail) (s : State) : Effect (.drainTimeExpiry r) s (drainExpiry r s) := by
  unfold drainExpiry
  split
  · next h =>
    split
    · exact (Cause.stuck (s := s) r h.1).effect.trans (follows_fail_enterFault r .drainStuck s)
    · exact (Cause.finish (s := s) r h.1).effect.trans (follows_railTurn none [] [] _)
  · exact .refl _ s

theorem effect_deferredOffTaken (r : Rail) (s : State) : Effect (.deferredOff r) s (deferredOffTaken r s) := by
  unfold deferredOffTaken
  dsimp only
  split
  · next h =>
    have hoff : Follows s (s.finishDrain r) := .of_railsReact (onlyRails_finishDrain s r) (railsReact_finishDrain h.1 h.2.1)
    exact (hoff.trans (follows_railTurn none [] [.enteredOff r] _)).effect
  · exact .refl _ s

theorem reaction_grantHead (r : Rail) (k : GrantKind) (s : State) : Reaction s (grantHead r k s) := by
  unfold grantHead
  split
  · next q rest hq =>
    split
    · next h =>
      have hreq : s.requestOf r = some (q.kind, q.amount) := by
        rw [← h.1]
        exact s.mem_reconcile q (hq ▸ List.mem_cons_self)
      have hfree : (s.reconcile.rail r).state.free := State.free_of_requestOf hreq
      have hhand : RailsReact s (handGrant s r k q.amount ⟨{ s.reconcile with budgetQueue := rest }, []⟩).st :=
        railsReact_handGrant s k q.amount (e := ⟨{ s.reconcile with budgetQueue := rest }, []⟩) hfree
      have hpop : OnlyRails s { s.reconcile with budgetQueue := rest } := rfl
      have ho := hpop.trans (onlyRails_handGrant s r k q.amount ⟨{ s.reconcile with budgetQueue := rest }, []⟩)
      unfold concludeGroup
      generalize handGrant s r k q.amount ⟨{ s.reconcile with budgetQueue := rest }, []⟩ = e at ho hhand
      exact reaction_conclude none e.log e.st s { e with log := [] } ho hhand
    · exact reaction_of_heard (.refl s) (.refl s) (.refl s)
  · exact reaction_of_heard (.refl s) (.refl s) (.refl s)

theorem follows_grantHead (r : Rail) (k : GrantKind) (s : State) : Follows s (grantHead r k s) :=
  (reaction_grantHead r k s).follows

/-! ### The supply monitor -/

/-- The flag after a change of the supply state, by what the entry does to the flags of the SHED rails (R119). -/
theorem State.flagAfter_eq (s : State) (old new : SupplyState) (r : Rail) :
    s.flagAfter old new r =
      match suspensionAt old new with
      | some b => if (s.record r).defined ∧ (s.record r).shedClass = .shed then b else (s.rail r).suspended
      | none => (s.rail r).suspended := by
  unfold State.flagAfter
  cases old <;> cases new <;> simp [suspensionAt]

theorem setSuspended_eq (s : State) (b : Bool) :
    s.setSuspended b =
      { s with
        rails := Vector.ofFn fun r =>
          if (s.record r).defined = true ∧ (s.record r).shedClass = .shed then { s.rail r with suspended := b }
          else s.rail r } := by
  have hrails : (s.setSuspended b).rails = Vector.ofFn fun r =>
      if (s.record r).defined = true ∧ (s.record r).shedClass = .shed then { s.rail r with suspended := b }
      else s.rail r :=
    vector_eq_of_get fun r => by
      rw [get_ofFn]
      exact s.rail_setSuspended b r
  have h := onlyRails_setSuspended s b
  rw [OnlyRails, setSuspended_allocated, setSuspended_budgetQueue, hrails] at h
  exact h

/-- The monitor in a supply state just entered. -/
def SupplyMonitor.entering (m : SupplyMonitor) (p : PartRecord) (st : SupplyState) : SupplyMonitor :=
  { m with state := st, holdoff := holdoffIn p st }

/-- The rails find a change of the supply state with the monitor, the limit and the flags of the state entered (R118, R119). -/
theorem supplyChanged_st (st : SupplyState) (s : State) :
    (supplyChanged st s).st = s.supplied (s.supply.entering s.part st) := by
  have hflags (q : Rail) := s.flagAfter_eq s.supply.state st q
  unfold supplyChanged State.supplied SupplyMonitor.entering
  cases hsuspension : suspensionAt s.supply.state st with
  | none =>
    have hrails : s.rails = Vector.ofFn fun r => { s.rail r with suspended := s.flagAfter s.supply.state st r } :=
      vector_eq_of_get fun r => by
        rw [get_ofFn, hflags, hsuspension]
        rfl
    dsimp only
    rw [← hrails]
  | some b =>
    dsimp only
    rw [setSuspended_eq]
    have hrails : (Vector.ofFn fun r =>
        if (s.record r).defined = true ∧ (s.record r).shedClass = .shed then { s.rail r with suspended := b }
        else s.rail r) = Vector.ofFn fun r => { s.rail r with suspended := s.flagAfter s.supply.state st r } :=
      vector_eq_of_get fun r => by
        rw [get_ofFn, get_ofFn, hflags, hsuspension]
        dsimp only
        split <;> rfl
    rw [← hrails]
    rfl

theorem State.rail_supplied (s : State) (m : SupplyMonitor) (r : Rail) :
    (s.supplied m).rail r = { s.rail r with suspended := s.flagAfter s.supply.state m.state r } := get_ofFn _ r

theorem railsReact_drainRunning (s : State) (c : DrainCause) : RailsReact s (s.drainRunning c) :=
  .foldl (fun t r => by
    split
    · next h =>
      refine railsReact_enterDraining c fun hf => ?_
      rw [hf] at h
      cases h
    · exact .refl t) _ s

theorem effect_changeSupply (c : Instr) (st : SupplyState) {s t : State}
    (ht : t = { s with supply := t.supply }) : Effect c s (changeSupply st t) := by
  have hsupplied : Cause s c (supplyChanged st t).st := by
    rw [supplyChanged_st]
    refine .supplied c _ (by rw [ht]; rfl) fun r => ?_
    rw [State.rail_supplied, ht]
    rfl
  rw [changeSupply_eq]
  generalize supplyChanged st t = e at hsupplied
  refine hsupplied.effect.trans (.trans ?_ (follows_railTurn none e.log [] _))
  split
  · exact .of_railsReact (onlyRails_drainRunning e.st .collapse) (railsReact_drainRunning e.st .collapse)
  · exact .refl _

theorem effect_sides (c : Instr) (s : State) (w u : Side) :
    Effect c s { s with supply := { s.supply with warnOut := w, critOut := u } } :=
  (Cause.supplied (s := s) c { s with supply := { s.supply with warnOut := w, critOut := u } } rfl fun _ => rfl).effect

theorem effect_fallBelowWarn (c : Instr) (s : State) : Effect c s (fallBelowWarn s) := by
  unfold fallBelowWarn
  split
  · dsimp only
    split
    · exact effect_changeSupply c .low rfl
    · exact effect_changeSupply c .low rfl
    · exact effect_sides c s .below s.supply.critOut
    · exact effect_sides c s .below s.supply.critOut
  · exact .refl c s

theorem effect_fallBelowCrit (c : Instr) (s : State) : Effect c s (fallBelowCrit s) := by
  unfold fallBelowCrit
  split
  · dsimp only
    split
    · exact effect_changeSupply c .collapse rfl
    · exact effect_changeSupply c .collapse rfl
    · exact effect_changeSupply c .collapse rfl
    · exact effect_sides c s s.supply.warnOut .below
  · exact .refl c s

theorem effect_riseAboveCritBand (c : Instr) (s : State) : Effect c s (riseAboveCritBand s) := by
  unfold riseAboveCritBand
  split
  · dsimp only
    split
    · exact effect_changeSupply c .low rfl
    · exact effect_sides c s s.supply.warnOut .above
    · exact effect_sides c s s.supply.warnOut .above
    · exact effect_sides c s s.supply.warnOut .above
  · exact .refl c s

theorem effect_riseAboveWarnBand (c : Instr) (s : State) : Effect c s (riseAboveWarnBand s) := by
  unfold riseAboveWarnBand
  split
  · dsimp only
    split
    · exact effect_changeSupply c .recovering rfl
    · exact effect_changeSupply c .recovering rfl
    · exact effect_sides c s .above s.supply.critOut
    · exact effect_sides c s .above s.supply.critOut
  · exact .refl c s

theorem effect_holdoffExpiry (c : Instr) (s : State) : Effect c s (holdoffExpiry s) := by
  unfold holdoffExpiry
  split
  · exact effect_changeSupply c .normal rfl
  · exact .refl c s

/-! ### Link lines and resets -/

theorem beside_csnFall (l : Link) (s : State) : Beside s (csnFall l s) := by
  unfold csnFall
  split
  · exact .refl s
  · exact beside_modLink ..

theorem beside_csnRise (l : Link) (s : State) : Beside s (csnRise l s) := by
  unfold csnRise
  split
  · exact .refl s
  · exact beside_modLink ..

theorem beside_responseEnd (l : Link) (s : State) : Beside s (responseEnd l s) := by
  unfold responseEnd
  split
  · exact beside_modLink ..
  · exact .refl s

theorem beside_linkResetRelease (l : Link) (s : State) : Beside s (linkResetRelease l s) := by
  unfold linkResetRelease
  split
  · exact .refl s
  · exact beside_modLink ..

theorem effect_linkReset (l : Link) (s : State) : Effect (.linkReset l) s (linkReset l s) := by
  unfold linkReset
  split
  · exact .refl _ s
  · exact .ahead (beside_modLink s l _) (effect_teardown .detached _ (.inr (.inr rfl)))

/-- What a warm reset does to the masters, each block in one write (R141, R158, R176). -/
theorem forgetMasters_rest (s : State) :
    s.forgetMasters =
      { s with timestamp := 0, resetn := .low, sessions := s.forgetMasters.sessions, links := s.forgetMasters.links } := by
  have hfold : ∀ (ls : List Link) (t : State), Beside t (ls.foldl (fun t l =>
      (t.modSession l fun x => x.tornDown .detached).modLink l fun x => { x with receiver := x.receiver.atWarmReset }) t) := by
    intro ls
    induction ls with
    | nil => exact .refl
    | cons a ls ih => exact fun t => ((beside_modSession t a _).trans (beside_modLink ..)).trans (ih _)
  have h : Beside { s with timestamp := 0, resetn := .low } s.forgetMasters := hfold allLinks _
  have hsense : s.forgetMasters.sense = s.sense := by
    have hsense : ∀ (ls : List Link) (t : State), (ls.foldl (fun t l =>
        (t.modSession l fun x => x.tornDown .detached).modLink l fun x => { x with receiver := x.receiver.atWarmReset })
          t).sense = t.sense := by
      intro ls
      induction ls with
      | nil => exact fun _ => rfl
      | cons a ls ih => exact fun t => (ih _).trans rfl
    exact hsense allLinks _
  rw [Beside, hsense] at h
  exact h

theorem rail_forgetMasters (s : State) (r : Rail) : s.forgetMasters.rail r = s.rail r := by
  have h := forgetMasters_rest s
  generalize s.forgetMasters = a at h
  rw [h]
  rfl

theorem restartSupply_rest (v : Nat) (s : State) :
    restartSupply v s =
      { s with
        rails := (restartSupply v s).rails, supply := (restartSupply v s).supply, limit := (restartSupply v s).limit
        sense := v } := by
  unfold restartSupply
  split
  · rw [evaluateSupply_eq]
  · rfl

theorem rail_restartSupply (v : Nat) (s : State) (r : Rail) :
    (restartSupply v s).rail r = { s.rail r with suspended := ((restartSupply v s).rail r).suspended } := by
  unfold restartSupply
  split
  · rw [rail_evaluateSupply]
  · rfl

/-- What a warm reset clears of a rail and keeps of it, whatever its state (R50). -/
theorem railRestarted (s : State) (r : Rail) :
    (s.restartRails.rail r).claims = .replicate 4 0 ∧ (s.restartRails.rail r).pg = (s.rail r).pg := by
  have hrecord (x : RailRuntime) (rec : RailRecord) :
      (x.restarted r rec).claims = .replicate 4 0 ∧ (x.restarted r rec).pg = x.pg := by
    unfold RailRuntime.restarted RailRuntime.restartedIfIdle RailRuntime.drainedIfRunning
    split <;> split <;> exact ⟨rfl, rfl⟩
  rw [rail_restartRails s r]
  exact hrecord (s.rail r) (s.record r)

/-- A warm reset, from what it has done to the masters (`a`) and to the rails (`m`). -/
theorem cause_warm (v : Nat) {s a m : State}
    (ha : a = { s with timestamp := 0, resetn := .low, sessions := a.sessions, links := a.links }) (hm : OnlyRails a m)
    (hrestarted : ∀ r, (m.rail r).claims = .replicate 4 0 ∧ (m.rail r).pg = (s.rail r).pg) :
    Cause s (.warmReset v) (restartSupply v m) := by
  have hrails := rail_restartSupply v m
  have hrest := restartSupply_rest v m
  generalize restartSupply v m = u at hrails hrest
  unfold OnlyRails at hm
  refine .warm v u (by rw [hrest, hm, ha]) (fun r => ?_) fun r => ?_
  · rw [hrails]
    exact (hrestarted r).1
  · rw [hrails]
    exact (hrestarted r).2

theorem effect_warmReset (v : Nat) (s : State) : Effect (.warmReset v) s (warmReset v s) := by
  have hrestarted (r : Rail) : (s.forgetMasters.restartRails.rail r).claims = .replicate 4 0
      ∧ (s.forgetMasters.restartRails.rail r).pg = (s.rail r).pg := by
    rw [← rail_forgetMasters s r]
    exact railRestarted s.forgetMasters r
  have hcause := cause_warm v (forgetMasters_rest s) (onlyRails_restartRails s.forgetMasters) hrestarted
  unfold warmReset
  split
  · exact (Beside.follows (s := s) (t := { s with sense := v }) rfl).effect
  · exact hcause.effect.trans (follows_railTurn none [] [] _)

/-- Every command writes what is its own, and the rest follows. -/
theorem effect_exec (c : Instr) (s : State) : ∃ t, exec c s = .next t ∧ Effect c s t := by
  cases c with
  | attach l f => exact ⟨_, rfl, effect_serve fun t _ => effect_attachAnswer l f t⟩
  | detach l f => exact ⟨_, rfl, effect_serve fun t _ => effect_detachAnswer l f t⟩
  | renew l f => exact ⟨_, rfl, effect_serve fun t _ => .refl _ t⟩
  | claim l f => exact ⟨_, rfl, effect_serve fun t _ => effect_claimAnswer l f t⟩
  | releaseWithoutWait l f => exact ⟨_, rfl, effect_serve fun t _ => effect_releaseAnswer l f t (.inr (.inl rfl))⟩
  | releaseWithWait l f => exact ⟨_, rfl, effect_serve fun t _ => effect_releaseAnswer l f t (.inr (.inr rfl))⟩
  | clearFault l f => exact ⟨_, rfl, effect_serve fun t _ => effect_clearFaultAnswer l f t⟩
  | fetchEvent l f => exact ⟨_, rfl, effect_serve fun t _ => effect_fetchAnswer l f t⟩
  | queryRail l f => exact ⟨_, rfl, effect_serve fun t _ => effect_queryRailAnswer l f t⟩
  | queryPart l f => exact ⟨_, rfl, effect_serve fun t _ => .refl _ t⟩
  | writeRail l f =>
    exact ⟨_, rfl, effect_serve fun _ h => effect_writeRailAnswer l f (uncommitted_of_lifecycleRefusal (.inl rfl) h)⟩
  | writePart l f =>
    exact ⟨_, rfl, effect_serve fun _ h =>
      (Cause.part l f (parsePartRecord f.args) (uncommitted_of_lifecycleRefusal (.inr (.inl rfl)) h)).effect⟩
  | readRail l f => exact ⟨_, rfl, effect_serve fun t _ => effect_readRailAnswer l f t⟩
  | readPart l f => exact ⟨_, rfl, effect_serve fun t _ => .refl _ t⟩
  | commit l f v =>
    exact ⟨_, rfl, .ahead (t := { s with sense := v }) rfl (effect_serve fun _ h =>
      effect_commitAnswer l f v (uncommitted_of_lifecycleRefusal (.inr (.inr rfl)) h))⟩
  | frameDiscard l => exact ⟨_, rfl, (beside_csnRise l s).follows.effect⟩
  | pgChangeTaken r level => exact ⟨_, rfl, effect_pgChange r level s⟩
  | rampTimeExpiry r => exact ⟨_, rfl, effect_rampExpiry r s⟩
  | slewTimeExpiry r => exact ⟨_, rfl, effect_slewExpiry r s⟩
  | drainTimeExpiry r => exact ⟨_, rfl, effect_drainExpiry r s⟩
  | deferredOff r => exact ⟨_, rfl, effect_deferredOffTaken r s⟩
  | startGrant r => exact ⟨_, rfl, (follows_grantHead r .start s).effect⟩
  | raiseGrant r => exact ⟨_, rfl, (follows_grantHead r .raise s).effect⟩
  | holdoffExpiry => exact ⟨_, rfl, effect_holdoffExpiry _ s⟩
  | leaseExpiry l =>
    refine ⟨_, rfl, ?_⟩
    split
    · exact effect_teardown .expired s (.inr (.inl rfl))
    · exact .refl _ s
  | fallBelowWarn v => exact ⟨_, rfl, .ahead (t := { s with sense := v }) rfl (effect_fallBelowWarn _ _)⟩
  | fallBelowCrit v => exact ⟨_, rfl, .ahead (t := { s with sense := v }) rfl (effect_fallBelowCrit _ _)⟩
  | riseAboveCritBand v => exact ⟨_, rfl, .ahead (t := { s with sense := v }) rfl (effect_riseAboveCritBand _ _)⟩
  | riseAboveWarnBand v => exact ⟨_, rfl, .ahead (t := { s with sense := v }) rfl (effect_riseAboveWarnBand _ _)⟩
  | linkReset l => exact ⟨_, rfl, effect_linkReset l s⟩
  | linkResetRelease l => exact ⟨_, rfl, (beside_linkResetRelease l s).follows.effect⟩
  | warmReset v => exact ⟨_, rfl, effect_warmReset v s⟩
  | warmResetRelease => exact ⟨_, rfl, (Follows.beside (s := s) (t := { s with resetn := .high }) rfl).effect⟩
  | powerOnReset => exact ⟨_, rfl, (Cause.powerOn (s := s)).effect⟩
  | timestampTick => exact ⟨_, rfl, (Cause.tick (s := s)).effect⟩
  | csnFall l => exact ⟨_, rfl, (beside_csnFall l s).follows.effect⟩
  | responseEnd l => exact ⟨_, rfl, (beside_responseEnd l s).follows.effect⟩
  | csnRise l => exact ⟨_, rfl, (beside_csnRise l s).follows.effect⟩

theorem effect_of_exec {c : Instr} {s t : State} (h : exec c s = .next t) : Effect c s t := by
  obtain ⟨u, hu, he⟩ := effect_exec c s
  rw [hu] at h
  cases h
  exact he

end Sys2Proof.Machine
end

/-! ### Who writes what (R1, R21, R48, R51, R97, R106, R158, R163) -/

section
namespace Sys2Proof.Machine

theorem State.claim_of_claims_eq {s t : State} {r : Rail} (h : (t.rail r).claims = (s.rail r).claims) (l : Link) :
    t.claim l r = s.claim l r := by
  unfold State.claim
  rw [h]

theorem Follows.claim {s t : State} (h : Follows s t) (l : Link) (r : Rail) : t.claim l r = s.claim l r :=
  State.claim_of_claims_eq (h.claims r) l

theorem Beside.claim {s t : State} (h : Beside s t) (l : Link) (r : Rail) : t.claim l r = s.claim l r := by
  rw [h]
  rfl

theorem State.rail_setClaim (s : State) (l : Link) (r q : Rail) (v : Nat) :
    (s.setClaim l r v).rail q =
      if q = r then { s.rail r with claims := (s.rail r).claims.set l.val v l.isLt } else s.rail q :=
  State.rail_modRail ..

theorem onlyRails_activated (s : State) :
    OnlyRails { s with lifecycle := .committed, allocated := 0, budgetQueue := [] } s.activated :=
  onlyRails_modRails _ _

/-- What an activation and an evaluation of SENSE leave alone beside the rails and the supply monitor. -/
theorem committed_rest (v : Nat) (s : State) :
    evaluateSupply v s.activated =
      { s with
        lifecycle := .committed, allocated := 0, budgetQueue := []
        rails := (evaluateSupply v s.activated).rails, supply := s.part.supplyAt v
        limit := s.part.limitIn (s.part.evaluated v), sense := v } := by
  have hactivated := onlyRails_activated s
  have hallocated := s.activated_allocated
  have hqueue : s.activated.budgetQueue = [] := modRails_budgetQueue _ _
  have hevaluated := evaluateSupply_eq v s.activated
  generalize evaluateSupply v s.activated = u at hevaluated
  generalize s.activated = a at hactivated hallocated hqueue hevaluated
  unfold OnlyRails at hactivated
  rw [hevaluated, hactivated, hallocated, hqueue]

theorem State.rail_withTimestamp (s : State) (n : BitVec 16) (r : Rail) :
    State.rail { s with timestamp := n } r = s.rail r := rfl

/-- The waiting commands, which no command touches. -/
theorem Cause.pending {s m : State} {c : Instr} (h : Cause s c m) : m.pending = s.pending := by
  cases h with
  | nothing => rfl
  | claim => rfl
  | without => rfl
  | clear => exact (onlyRails_moveRail s _ _).pending
  | record => rfl
  | part => rfl
  | commit l f v _ =>
    rw [committed_rest]
  | pg => rfl
  | stuck r _ => exact (onlyRails_enterFault s r .drainStuck).pending
  | finish => rfl
  | supplied _ m hrest _ => rw [hrest]
  | warm v m hrest _ _ => rw [hrest]
  | powerOn => rw [powerOnReset_eq]
  | tick => rw [State.tickTimers_eq]

theorem Effect.pending {s t : State} {c : Instr} (h : Effect c s t) : t.pending = s.pending := by
  obtain ⟨a, m, ha, hm, ht⟩ := h
  calc t.pending = m.pending := by rw [ht.rest]
    _ = a.pending := hm.pending
    _ = s.pending := by rw [ha]

/-- Settles O2: a command's own writes and what follows them leave the waiting commands alone. -/
theorem everyCommandCompletes : Obligations.EveryCommandCompletes := by
  intro c s
  obtain ⟨t, ht, heffect⟩ := effect_exec c s
  exact ⟨t, ht, heffect.pending⟩

/-- The table and the lifecycle, by what the command writes itself. -/
theorem Cause.table {s m : State} {c : Instr} (h : Cause s c m) :
    (m.records = s.records ∨ (s.lifecycle = .uncommitted ∧ ∃ l f, c = .writeRail l f) ∨ c = .powerOnReset)
      ∧ (m.part = s.part ∨ (s.lifecycle = .uncommitted ∧ ∃ l f, c = .writePart l f) ∨ c = .powerOnReset)
      ∧ (m.lifecycle = s.lifecycle
        ∨ (s.lifecycle = .uncommitted ∧ m.lifecycle = .committed ∧ ∃ l f v, c = .commit l f v) ∨ c = .powerOnReset) := by
  have kept {u : State} (hr : u.records = s.records) (hp : u.part = s.part) (hl : u.lifecycle = s.lifecycle) :
      (u.records = s.records ∨ (s.lifecycle = .uncommitted ∧ ∃ l f, c = .writeRail l f) ∨ c = .powerOnReset)
        ∧ (u.part = s.part ∨ (s.lifecycle = .uncommitted ∧ ∃ l f, c = .writePart l f) ∨ c = .powerOnReset)
        ∧ (u.lifecycle = s.lifecycle
          ∨ (s.lifecycle = .uncommitted ∧ u.lifecycle = .committed ∧ ∃ l f v, c = .commit l f v) ∨ c = .powerOnReset) :=
    ⟨.inl hr, .inl hp, .inl hl⟩
  have rails {u : State} (h : OnlyRails s u) := kept h.records h.part h.lifecycle
  cases h with
  | nothing => exact kept rfl rfl rfl
  | claim => exact kept rfl rfl rfl
  | without => exact kept rfl rfl rfl
  | clear => exact rails (onlyRails_moveRail s _ _)
  | record l f r x hu => exact ⟨.inr (.inl ⟨hu, l, f, rfl⟩), .inl rfl, .inl rfl⟩
  | part l f p hu => exact ⟨.inl rfl, .inr (.inl ⟨hu, l, f, rfl⟩), .inl rfl⟩
  | commit l f v hu =>
    rw [committed_rest]
    exact ⟨.inl rfl, .inl rfl, .inr (.inl ⟨hu, rfl, l, f, v, rfl⟩)⟩
  | pg => exact kept rfl rfl rfl
  | stuck r _ => exact rails (onlyRails_enterFault s r .drainStuck)
  | finish => exact kept rfl rfl rfl
  | supplied _ m hrest _ => exact kept (by rw [hrest]) (by rw [hrest]) (by rw [hrest])
  | warm v m hrest _ _ => exact kept (by rw [hrest]) (by rw [hrest]) (by rw [hrest])
  | powerOn => exact ⟨.inr (.inr rfl), .inr (.inr rfl), .inr (.inr rfl)⟩
  | tick => exact kept (by rw [State.tickTimers_eq]) (by rw [State.tickTimers_eq]) (by rw [State.tickTimers_eq])

/-- Settles O13: of what commands write themselves only the writes, COMMIT and power-on reset touch the table or the lifecycle. -/
theorem tableIsWrittenByWritesAlone : Obligations.TableIsWrittenByWritesAlone := by
  intro c s t h
  obtain ⟨a, m, ha, hm, ht⟩ := effect_of_exec h
  have hrecords : t.records = m.records := by rw [ht.rest]
  have hpart : t.part = m.part := by rw [ht.rest]
  have hlifecycle : t.lifecycle = m.lifecycle := by rw [ht.rest]
  have hcause := hm.table
  rw [hrecords, hpart, hlifecycle]
  rw [ha] at hcause
  exact hcause

theorem Cause.claimWriters {s m : State} {c : Instr} (h : Cause s c m) (l : Link) (r : Rail) :
    m.claim l r = s.claim l r
      ∨ (∃ f, (c = .claim l f ∨ c = .releaseWithoutWait l f ∨ c = .releaseWithWait l f) ∧ (argByte f 0).toNat = r.val)
      ∨ (m.claim l r = 0
        ∧ ((∃ f, c = .detach l f) ∨ c = .leaseExpiry l ∨ c = .linkReset l ∨ (∃ v, c = .warmReset v)
          ∨ c = .powerOnReset ∨ ∃ m f v, c = .commit m f v)) := by
  cases h with
  | nothing => exact .inl rfl
  | claim _ l' f r' v hc hr =>
    by_cases hl : l = l'
    · subst hl
      by_cases hrr : r = r'
      · subst hrr
        exact .inr (.inl ⟨f, hc, hr⟩)
      · exact .inl (by rw [State.claim, State.claim, State.rail_setClaim, if_neg hrr])
    · refine .inl ?_
      rw [State.claim, State.claim, State.rail_setClaim]
      split
      · next hrr => rw [get_set, if_neg hl, hrr]
      · rfl
  | without _ l' st hc =>
    by_cases hl : l = l'
    · subst hl
      exact .inr (.inr ⟨s.claim_without l st r, hc.elim .inl fun h => h.elim (.inr ∘ .inl) (.inr ∘ .inr ∘ .inl)⟩)
    · refine .inl ?_
      have hrail : (s.without l' st).rail r = { s.rail r with claims := (s.rail r).claims.set l'.val 0 l'.isLt } := get_map ..
      rw [State.claim, hrail, get_set, if_neg hl]
      rfl
  | clear l' f r' hr hclaim hlatch =>
    refine .inl (State.claim_of_claims_eq ?_ l)
    exact (State.rail_moveRail_kept s r' r _ ⟨rfl, rfl, rfl, rfl⟩).1
  | record => exact .inl rfl
  | part => exact .inl rfl
  | commit l' f v hu =>
    refine .inr (.inr ⟨?_, .inr (.inr (.inr (.inr (.inr ⟨l', f, v, rfl⟩))))⟩)
    rw [State.claim, rail_evaluateSupply, rail_activated]
    exact get_replicate ..
  | pg r' level =>
    refine .inl (State.claim_of_claims_eq ?_ l)
    rw [State.rail_modRail]
    split
    · next hr => rw [hr]
    · rfl
  | stuck r' hs =>
    refine .inl (State.claim_of_claims_eq ?_ l)
    rw [becomes_enterFault s r' .drainStuck r]
    split
    · next hr => rw [hr]; rfl
    · rfl
  | finish r' hs =>
    refine .inl (State.claim_of_claims_eq ?_ l)
    rw [State.rail_modRail]
    split
    · next hr => rw [hr]
    · rfl
  | supplied _ m hrest hrails => exact .inl (State.claim_of_claims_eq (by rw [hrails]) l)
  | warm v m hrest hclaims hpg =>
    refine .inr (.inr ⟨?_, .inr (.inr (.inr (.inl ⟨v, rfl⟩)))⟩)
    rw [State.claim, hclaims]
    exact get_replicate ..
  | powerOn =>
    refine .inr (.inr ⟨?_, .inr (.inr (.inr (.inr (.inl rfl))))⟩)
    rw [State.claim, rail_powerOnReset]
    exact get_replicate ..
  | tick =>
    refine .inl (State.claim_of_claims_eq ?_ l)
    rw [State.rail_withTimestamp, s.rail_tickTimers]

/-- Settles O14: of what commands write themselves only CLAIM, RELEASE, the teardowns, the resets and COMMIT touch a claim entry. -/
theorem claimsAreWrittenByTheirSession : Obligations.ClaimsAreWrittenByTheirSession := by
  intro c s t l r h
  obtain ⟨a, m, ha, hm, ht⟩ := effect_of_exec h
  rw [ht.claim, ← ha.claim]
  exact hm.claimWriters l r

/-- A rail in FAULT, and its fault, by what the command writes itself. -/
theorem Cause.faulted {s m : State} {c : Instr} {r : Rail} (h : Cause s c m) (hr : (s.rail r).state = .fault) :
    ((m.rail r).state = .fault ∧ (m.rail r).faultKind = (s.rail r).faultKind
        ∧ (m.rail r).faultCount = (s.rail r).faultCount ∧ (m.rail r).faultLatch = (s.rail r).faultLatch)
      ∨ (∃ l f, c = .clearFault l f ∧ (argByte f 0).toNat = r.val ∧ s.claim l r ≠ 0 ∧ (s.rail r).faultLatch = true)
      ∨ (∃ v, c = .warmReset v) ∨ c = .powerOnReset ∨ (s.lifecycle = .uncommitted ∧ ∃ l f v, c = .commit l f v) := by
  have kept {x : RailRuntime} {p : Prop}
      (hx : x.state = (s.rail r).state ∧ x.faultKind = (s.rail r).faultKind ∧ x.faultCount = (s.rail r).faultCount
        ∧ x.faultLatch = (s.rail r).faultLatch) :
      (x.state = .fault ∧ x.faultKind = (s.rail r).faultKind ∧ x.faultCount = (s.rail r).faultCount
        ∧ x.faultLatch = (s.rail r).faultLatch) ∨ p := .inl ⟨hx.1.trans hr, hx.2⟩
  cases h with
  | nothing => exact kept ⟨rfl, rfl, rfl, rfl⟩
  | claim _ l f q v _ _ =>
    refine kept ?_
    rw [State.rail_setClaim]
    split
    · next hq => rw [hq]; exact ⟨rfl, rfl, rfl, rfl⟩
    · exact ⟨rfl, rfl, rfl, rfl⟩
  | without _ l st _ =>
    have hrail : (s.without l st).rail r = { s.rail r with claims := (s.rail r).claims.set l.val 0 l.isLt } := get_map ..
    rw [hrail]
    exact kept ⟨rfl, rfl, rfl, rfl⟩
  | clear l f q hq hclaim hlatch =>
    by_cases hrq : r = q
    · subst hrq
      exact .inr (.inl ⟨l, f, rfl, hq, hclaim, hlatch⟩)
    · refine kept ?_
      rw [s.rail_moveRail_other q r _ hrq]
      exact ⟨rfl, rfl, rfl, rfl⟩
  | record => exact kept ⟨rfl, rfl, rfl, rfl⟩
  | part => exact kept ⟨rfl, rfl, rfl, rfl⟩
  | commit l f v hu => exact .inr (.inr (.inr (.inr ⟨hu, l, f, v, rfl⟩)))
  | pg q level =>
    refine kept ?_
    rw [State.rail_modRail]
    split
    · next hq => rw [hq]; exact ⟨rfl, rfl, rfl, rfl⟩
    · exact ⟨rfl, rfl, rfl, rfl⟩
  | stuck q hs =>
    have hrq : r ≠ q := fun hrq => by
      rw [← hrq, hr] at hs
      cases hs
    rw [becomes_enterFault s q .drainStuck r, if_neg hrq]
    exact kept ⟨rfl, rfl, rfl, rfl⟩
  | finish q hs =>
    have hrq : r ≠ q := fun hrq => by
      rw [← hrq, hr] at hs
      cases hs
    rw [State.rail_modRail, if_neg hrq]
    exact kept ⟨rfl, rfl, rfl, rfl⟩
  | supplied _ m hrest hrails =>
    rw [hrails]
    exact kept ⟨rfl, rfl, rfl, rfl⟩
  | warm v m _ _ _ => exact .inr (.inr (.inl ⟨v, rfl⟩))
  | powerOn => exact .inr (.inr (.inr (.inl rfl)))
  | tick =>
    rw [State.rail_withTimestamp, s.rail_tickTimers]
    exact kept ⟨rfl, rfl, rfl, rfl⟩

/-- Settles O15: what follows a command's own writes keeps a rail in FAULT there, and of the commands only CLEAR_FAULT, the resets and
COMMIT take it out. -/
theorem faultIsLeftByClearOrReset : Obligations.FaultIsLeftByClearOrReset := by
  intro c s t r h hr
  obtain ⟨a, m, ha, hm, ht⟩ := effect_of_exec h
  rw [← ha.rail] at hr ⊢
  have hlifecycle : s.lifecycle = a.lifecycle := by rw [ha]
  simp only [← ha.claim, hlifecycle]
  rcases hm.faulted hr with ⟨hstate, hfault⟩ | hleft
  · rw [ht.faulted r hstate]
    exact .inl ⟨hstate, hfault⟩
  · exact .inr hleft

theorem Cause.pgWriters {s m : State} {c : Instr} (h : Cause s c m) (r : Rail) :
    (m.rail r).pg = (s.rail r).pg ∨ c = .pgChangeTaken r (m.rail r).pg ∨ (c = .powerOnReset ∧ (m.rail r).pg = .low) := by
  cases h with
  | nothing => exact .inl rfl
  | claim _ l f q v _ _ =>
    refine .inl ?_
    rw [State.rail_setClaim]
    split
    · next hq => rw [hq]
    · rfl
  | without _ l st _ =>
    have hrail : (s.without l st).rail r = { s.rail r with claims := (s.rail r).claims.set l.val 0 l.isLt } := get_map ..
    rw [hrail]
    exact .inl rfl
  | clear l f q _ _ _ => exact .inl (State.rail_moveRail_kept s q r _ ⟨rfl, rfl, rfl, rfl⟩).2.2.1
  | record => exact .inl rfl
  | part => exact .inl rfl
  | commit l f v hu =>
    rw [rail_evaluateSupply, rail_activated]
    exact .inl rfl
  | pg q level =>
    rw [State.rail_modRail]
    split
    · next hq => exact .inr (.inl (by rw [hq]))
    · exact .inl rfl
  | stuck q hs =>
    rw [becomes_enterFault s q .drainStuck r]
    split
    · next hq => rw [hq]; exact .inl rfl
    · exact .inl rfl
  | finish q hs =>
    rw [State.rail_modRail]
    split
    · next hq => rw [hq]; exact .inl rfl
    · exact .inl rfl
  | supplied _ m hrest hrails =>
    rw [hrails]
    exact .inl rfl
  | warm v m _ _ hpg => exact .inl (hpg r)
  | powerOn =>
    rw [rail_powerOnReset]
    exact .inr (.inr ⟨rfl, rfl⟩)
  | tick =>
    rw [State.rail_withTimestamp, s.rail_tickTimers]
    exact .inl rfl

theorem Cause.counterWriters {s m : State} {c : Instr} (h : Cause s c m) :
    m.timestamp = s.timestamp ∨ (c = .timestampTick ∧ m.timestamp.toNat = (s.timestamp.toNat + 1) % 65536)
      ∨ (m.timestamp = 0 ∧ ((∃ v, c = .warmReset v) ∨ c = .powerOnReset)) := by
  cases h with
  | nothing => exact .inl rfl
  | claim => exact .inl rfl
  | without => exact .inl rfl
  | clear => exact .inl (onlyRails_moveRail s _ _).timestamp
  | record => exact .inl rfl
  | part => exact .inl rfl
  | commit l f v _ =>
    rw [committed_rest]
    exact .inl rfl
  | pg => exact .inl rfl
  | stuck r _ => exact .inl (onlyRails_enterFault s r .drainStuck).timestamp
  | finish => exact .inl rfl
  | supplied _ m hrest _ => exact .inl (by rw [hrest])
  | warm v m hrest _ _ => exact .inr (.inr ⟨by rw [hrest], .inl ⟨v, rfl⟩⟩)
  | powerOn => exact .inr (.inr ⟨by rw [powerOnReset_eq]; rfl, .inr rfl⟩)
  | tick => exact .inr (.inl ⟨rfl, BitVec.toNat_add ..⟩)

/-- Settles O16: of what commands write themselves only a PG change taken and power-on reset touch a filtered PG, and only the tick and
the resets the counter. -/
theorem pgAndCounterHaveTheirOwnWriters : Obligations.PgAndCounterHaveTheirOwnWriters := by
  refine ⟨fun c s t r h => ?_, fun c s t h => ?_⟩
  · obtain ⟨a, m, ha, hm, ht⟩ := effect_of_exec h
    rw [ht.pg, ← ha.rail]
    exact hm.pgWriters r
  · obtain ⟨a, m, ha, hm, ht⟩ := effect_of_exec h
    have hbefore : s.timestamp = a.timestamp := by rw [ha]
    have hafter : t.timestamp = m.timestamp := by rw [ht.rest]
    rw [hbefore, hafter]
    exact hm.counterWriters

end Sys2Proof.Machine
end

/-! ### The hold sets and the part before COMMIT, over a step -/

section
namespace Sys2Proof.Machine

/-- A step out of an UNCOMMITTED part that is idle leaves it idle where it stays UNCOMMITTED, or is a power-on reset. -/
theorem idle_of_exec {c : Instr} {s t : State} (hs : IdleBeforeCommit s) (h : exec c s = .next t) : IdleBeforeCommit t := by
  rw [idleBeforeCommit_iff] at hs ⊢
  intro ht
  rcases (tableIsWrittenByWritesAlone c s t h).2.2 with hl | ⟨-, hc, -⟩ | hc
  · have hu : s.lifecycle = .uncommitted := hl.symm.trans ht
    exact (hs hu).exec hu h ht
  · rw [ht] at hc
    cases hc
  · subst hc
    cases h
    exact idle_powerOnReset s

theorem step_cases {s t : State} (h : step s = .next t) :
    t = s ∨ ∃ c rest, s.pending = c :: rest ∧ exec c { s with pending := rest } = .next t := by
  unfold step at h
  split at h
  · cases h
    exact .inl rfl
  · next c rest hp => exact .inr ⟨c, rest, hp, h⟩

theorem IdleBeforeCommit.withPending {s : State} (hs : IdleBeforeCommit s) (rest : List Instr) :
    IdleBeforeCommit { s with pending := rest } := hs

theorem IdleBeforeCommit.step {s t : State} (hs : IdleBeforeCommit s) (h : step s = .next t) : IdleBeforeCommit t := by
  rcases step_cases h with rfl | ⟨c, rest, -, hexec⟩
  · exact hs
  · exact idle_of_exec (hs.withPending rest) hexec

/-- Settles O11: in a committed part every elementary change keeps the hold sets exact; before COMMIT no rail holds another. -/
theorem stepsKeepHoldsExact : Obligations.StepsKeepHoldsExact := by
  intro s t hs hidle h
  have hidle' := hidle.step h
  refine ⟨?_, hidle'⟩
  cases hlife : t.lifecycle with
  | committed => exact (acts_of_step h).holds hs hlife
  | uncommitted => exact ((idleBeforeCommit_iff t).mp hidle' hlife).holds

end Sys2Proof.Machine
end

/-! ### The step, reset and the requests that are turned away (R130, R164, R178, R182) -/

section
namespace Sys2Proof.Machine

/-- Settles O1: the two cases of `step`. -/
theorem stepRunsTheFrontCommand : Obligations.StepRunsTheFrontCommand := by
  refine ⟨fun c rest s h => ?_, fun s h => ?_⟩
  · unfold step
    rw [h]
  · unfold step
    rw [h]

/-- A request is served on the common path, COMMIT with its SENSE stored. -/
theorem exec_request {c : Instr} {k : Kind} {l : Link} {f : Frame} (s : State) (hc : c.request? = some (k, l, f)) :
    ∃ (body : State → Answer) (v : Nat), exec c s = .next (State.serve { s with sense := v } k l f body) := by
  cases c with
  | attach => cases hc; exact ⟨_, s.sense, rfl⟩
  | detach => cases hc; exact ⟨_, s.sense, rfl⟩
  | renew => cases hc; exact ⟨_, s.sense, rfl⟩
  | claim => cases hc; exact ⟨_, s.sense, rfl⟩
  | releaseWithoutWait => cases hc; exact ⟨_, s.sense, rfl⟩
  | releaseWithWait => cases hc; exact ⟨_, s.sense, rfl⟩
  | clearFault => cases hc; exact ⟨_, s.sense, rfl⟩
  | fetchEvent => cases hc; exact ⟨_, s.sense, rfl⟩
  | queryRail => cases hc; exact ⟨_, s.sense, rfl⟩
  | queryPart => cases hc; exact ⟨_, s.sense, rfl⟩
  | writeRail => cases hc; exact ⟨_, s.sense, rfl⟩
  | writePart => cases hc; exact ⟨_, s.sense, rfl⟩
  | readRail => cases hc; exact ⟨_, s.sense, rfl⟩
  | readPart => cases hc; exact ⟨_, s.sense, rfl⟩
  | commit l f v => cases hc; exact ⟨_, v, rfl⟩
  | _ => cases hc

/-- Checks 1 and 2 of R182: the length byte above 32 or the CRC. -/
theorem frameRefusal_of_bad {k : Kind} {f : Frame}
    (h : 32 < f.length.toNat ∨ f.crc ≠ crc8 (kindByteOf k f.kind :: f.tag :: f.length :: f.args)) :
    frameRefusal k f = some .badFrame := if_pos h

/-- Checks 1 and 2 of R182: a kind that is not listed. -/
theorem frameRefusal_of_unlisted {k : Kind} {f : Frame}
    (h : ¬ (32 < f.length.toNat ∨ f.crc ≠ crc8 (kindByteOf k f.kind :: f.tag :: f.length :: f.args)))
    (hk : f.kind ≠ .own) : frameRefusal k f = some .unknownKind := by
  have hgood : frameRefusal k f = _ := if_neg h
  rw [hgood]
  cases hf : f.kind with
  | own => exact absurd hf hk
  | unlisted b => rfl

/-- Checks 1 and 2 of R182: the length of a listed kind. -/
theorem frameRefusal_of_own {k : Kind} {f : Frame}
    (h : ¬ (32 < f.length.toNat ∨ f.crc ≠ crc8 (kindByteOf k f.kind :: f.tag :: f.length :: f.args)))
    (hk : f.kind = .own) :
    frameRefusal k f =
      if k.allowsLength f.length.toNat ∧ f.args.length = f.length.toNat then none else some .badFrame := by
  have hgood : frameRefusal k f = _ := if_neg h
  rw [hgood, hk]

/-- What checks 1 and 2 of R182 answer. -/
theorem frameRefusal_eq_some {k : Kind} {f : Frame} {st : Status}
    (h : if 32 < f.length.toNat ∨ f.crc ≠ crc8 (kindByteOf k f.kind :: f.tag :: f.length :: f.args) then st = .badFrame
      else if f.kind ≠ .own then st = .unknownKind
      else k.allowsLength f.length.toNat = false ∧ st = .badFrame) : frameRefusal k f = some st := by
  split at h
  · next hbad => rw [frameRefusal_of_bad hbad, h]
  · next hgood =>
    split at h
    · next hkind => rw [frameRefusal_of_unlisted hgood hkind, h]
    · next hkind =>
      rw [frameRefusal_of_own hgood (Classical.not_not.mp hkind), h.1, h.2]
      exact if_neg fun hok => nomatch hok.1

/-- Settles O18. -/
theorem badFramesAreRefused : Obligations.BadFramesAreRefused := by
  intro c k l f s st hc _ hr h
  obtain ⟨body, v, hexec⟩ := exec_request s hc
  have hserve : State.serve { s with sense := v } k l f body = State.respond { s with sense := v } l f.tag st [] :=
    State.serve_badFrame hr (frameRefusal_eq_some h)
  exact ⟨_, hexec, by rw [hserve]; exact answered_respond rfl, by rw [hserve]; rfl⟩

/-- What check 3 of R182 answers (R130). -/
theorem sessionRefusal_eq_some {k : Kind} {x : SessionState} {st : Status}
    (h : (x = .detached ∧ k ≠ .attach ∧ st = .notAttached) ∨ (x = .attached ∧ k = .attach ∧ st = .alreadyAttached)
      ∨ (x = .expired ∧ k ≠ .attach ∧ k ≠ .detach ∧ st = .leaseExpired)) : sessionRefusal k x = some st := by
  rcases h with ⟨rfl, hk, rfl⟩ | ⟨rfl, rfl, rfl⟩ | ⟨rfl, ha, hd, rfl⟩
  · exact if_neg hk
  · rfl
  · exact if_neg (not_or.mpr ⟨ha, hd⟩)

/-- What check 4 of R182 answers (R164). -/
theorem lifecycleRefusal_eq_some {k : Kind} {x : Lifecycle} {st : Status}
    (h : (x = .uncommitted ∧ (k = .claim ∨ k = .release ∨ k = .clearFault) ∧ st = .notCommitted)
      ∨ (x = .committed ∧ (k = .writeRail ∨ k = .writePart ∨ k = .commit) ∧ st = .locked)) :
    lifecycleRefusal k x = some st := by
  rcases h with ⟨rfl, hk, rfl⟩ | ⟨rfl, hk, rfl⟩
  · exact if_pos hk
  · exact if_pos hk

/-- Settles O19: the two refusals on the common path, before and after the lease is renewed. -/
theorem sessionAndLifecycleChecksRefuse : Obligations.SessionAndLifecycleChecksRefuse := by
  constructor
  · intro c k l f s st hc hf hr h
    obtain ⟨body, v, hexec⟩ := exec_request s hc
    have hserve : State.serve { s with sense := v } k l f body = State.respond { s with sense := v } l f.tag st [] :=
      State.serve_sessionRefused hr hf (sessionRefusal_eq_some h)
    exact ⟨_, hexec, by rw [hserve]; exact answered_respond rfl, by rw [hserve]; rfl⟩
  · intro c k l f s st hc hf hr ha h
    obtain ⟨body, v, hexec⟩ := exec_request s hc
    have hsession : sessionRefusal k (s.session l).state = none := by
      rw [ha]
      refine if_neg fun hk => ?_
      rcases h with ⟨-, hk', -⟩ | ⟨-, hk', -⟩ <;> rw [hk] at hk' <;> revert hk' <;> decide
    have hserve : State.serve { s with sense := v } k l f body =
        (State.renewLease { s with sense := v } l).respond l f.tag st [] :=
      State.serve_lifecycleRefused hr hf hsession (lifecycleRefusal_eq_some h)
    have hlease : State.renewLease { s with sense := v } l = { s with sense := v, sessions := s.leaseRestarted l } :=
      State.renewLease_attached (s := { s with sense := v }) ha
    refine ⟨_, hexec, ?_, ?_⟩
    · rw [hserve, hlease]
      exact answered_respond rfl
    · rw [hserve, hlease]
      rfl

end Sys2Proof.Machine
end

/-! ### Requests whose answer is said at once (R61, R65, R107, R132, R159, R166, R167, R184, R185) -/

section
namespace Sys2Proof.Machine

variable {l : Link} {f : Frame} {s : State}

/-- A request of an ATTACHED session that its own rules answer without writing anything. -/
theorem answered_unchanged {k : Kind} (hp : Passes s k l f) (ha : k ≠ .attach) (hd : k ≠ .detach) {body : State → Answer}
    {st : Status} {data : List Byte}
    (hb : body { s with sessions := s.leaseRestarted l } = ⟨{ s with sessions := s.leaseRestarted l }, st, data⟩) :
    Answered s (s.serve k l f body) l st f data
      ∧ s.serve k l f body = { s with links := (s.serve k l f body).links, sessions := s.leaseRestarted l } := by
  rw [hp.serve_eq ha hd, hb]
  exact ⟨answered_respond rfl, rfl⟩

/-! #### ATTACH -/

theorem lt_32_iff (b : Byte) : b.toNat < 32 ↔ b.extractLsb' 5 3 = 0 := by
  have hlt := b.isLt
  rw [← BitVec.toNat_inj, toNat_extractLsb']
  change _ ↔ b.toNat / 32 % 8 = 0
  omega

theorem passes_attach_renewLease (h : Passes s .attach l f) : s.renewLease l = s :=
  State.renewLease_other fun ha => by
    have := h.session
    rw [ha] at this
    exact nomatch this

/-- Settles O20. -/
theorem attachOpensTheSession : Obligations.AttachOpensTheSession := by
  intro l f s hp
  have hserve : exec (.attach l f) s = .next ((attachAnswer l f s).st.respond l f.tag (attachAnswer l f s).status
      (attachAnswer l f s).data) := by
    have h : exec (.attach l f) s = .next (s.serve .attach l f (attachAnswer l f)) := rfl
    rw [h, State.serve_taken _ hp, passes_attach_renewLease hp]
  refine ⟨fun hlease hmask => ?_, fun hbad => ?_⟩
  · have hanswer : attachAnswer l f s = _ := if_neg (not_or.mpr ⟨hlease, not_not_intro ((lt_32_iff _).mp hmask)⟩)
    rw [hanswer] at hserve
    exact ⟨_, hserve, answered_respond rfl, rfl⟩
  · have hanswer : attachAnswer l f s = ⟨s, .badArgument, []⟩ :=
      if_pos (hbad.imp_right fun h h' => absurd ((lt_32_iff _).mpr h') (Nat.not_lt.mpr h))
    rw [hanswer] at hserve
    exact ⟨_, hserve, answered_respond rfl, rfl⟩

/-! #### FETCH_EVENT -/

theorem isCompletion_eq (code : EventCode) :
    code.isCompletion = decide (code ∈ [.granted, .superseded, .cancelled, .failed, .offReached, .held]) := by
  cases code <;> rfl

/-- A write to the session whose lease has been restarted. -/
theorem modSession_leaseRestarted (s : State) (l : Link) (g : Session → Session) :
    State.modSession { s with sessions := s.leaseRestarted l } l g =
      { s with
        sessions := s.sessions.set l.val
          (g { s.session l with leaseTimer := .running ((s.session l).leaseLength.toNat * 100) }) l.isLt } := by
  have hsession : State.session { s with sessions := s.leaseRestarted l } l =
      { s.session l with leaseTimer := .running ((s.session l).leaseLength.toNat * 100) } :=
    (get_set ..).trans (if_pos rfl)
  have hsessions (x : Session) : (s.leaseRestarted l).set l.val x l.isLt = s.sessions.set l.val x l.isLt :=
    Vector.set_set ..
  unfold State.modSession
  rw [hsession]
  exact congrArg (fun v => ({ s with sessions := v } : State)) (hsessions _)

theorem queue_leaseRestarted (s : State) (l : Link) :
    (State.session { s with sessions := s.leaseRestarted l } l).queue = (s.session l).queue
      ∧ (State.session { s with sessions := s.leaseRestarted l } l).lost = (s.session l).lost := by
  have hsession : State.session { s with sessions := s.leaseRestarted l } l =
      { s.session l with leaseTimer := .running ((s.session l).leaseLength.toNat * 100) } :=
    (get_set ..).trans (if_pos rfl)
  rw [hsession]
  exact ⟨rfl, rfl⟩

theorem fetchAnswer_of_cons {l : Link} {t : State} {e : EventRecord} {rest : List EventRecord}
    (h : (t.session l).queue = e :: rest) :
    fetchAnswer l t =
      ⟨t.modSession l fun y =>
          { y with queue := rest, lost := 0, alertn := if rest.isEmpty then .high else y.alertn },
        .ok, [oneByte rest.length, oneByte (t.session l).lost] ++ eventRecordBytes e⟩ := by
  unfold fetchAnswer
  dsimp only
  rw [h]

theorem fetchAnswer_of_nil {l : Link} {t : State} (h : (t.session l).queue = []) :
    fetchAnswer l t = ⟨t.modSession l fun y => { y with lost := 0 }, .empty, [0, oneByte (t.session l).lost]⟩ := by
  unfold fetchAnswer
  dsimp only
  rw [h]

/-- The eight bytes of an event record, spelled out (R189, R191). -/
theorem eventRecordBytes_eq (e : EventRecord) :
    eventRecordBytes e =
      [(if e.code ∈ [.granted, .superseded, .cancelled, .failed, .offReached, .held] then 0x00 else 0x01 : Byte),
        e.code.code,
        (e.rail.map fun r => oneByte r.val).getD absentByte, e.tag.getD 0xFF, BitVec.ofNat 8 e.level, e.detail.code, e.timestamp.extractLsb' 8 8,
        e.timestamp.extractLsb' 0 8] := by
  unfold eventRecordBytes
  rw [isCompletion_eq]
  simp only [decide_eq_true_eq]
  rfl

/-- Settles O24: the served answer, with the bytes of the record spelled out. -/
theorem fetchReturnsTheHead : Obligations.FetchReturnsTheHead := by
  intro l f s hp
  have hserve : exec (.fetchEvent l f) s = _ := congrArg Host.Outcome.next (hp.serve_eq nofun nofun (fetchAnswer l))
  obtain ⟨hqueue, hlost⟩ := queue_leaseRestarted s l
  constructor
  · intro e rest hq
    rw [fetchAnswer_of_cons (hqueue.trans hq), hlost, modSession_leaseRestarted, eventRecordBytes_eq] at hserve
    have halert (x : Line) : (if rest.isEmpty then Line.high else x) = if rest = [] then .high else x := by
      cases rest <;> rfl
    refine ⟨_, hserve, ?_, ?_⟩
    · refine Eq.mp (congrArg (Answered s _ l .ok f) ?_) (answered_respond rfl)
      simp only [List.cons_append, List.nil_append, List.cons.injEq, oneByte, true_and, and_true]
      refine ⟨?_, ?_, ?_⟩
      · cases e.code <;> rfl
      · cases e.rail <;> rfl
      · cases e.detail with
        | absent => rfl
        | fault k => cases k with
          | none => rfl
          | some k => cases k <;> rfl
        | supply st => cases st <;> rfl
    · rw [halert]
      rfl
  · intro hq
    rw [fetchAnswer_of_nil (hqueue.trans hq), hlost, modSession_leaseRestarted] at hserve
    exact ⟨_, hserve, answered_respond rfl, rfl⟩

/-! #### The refusals of CLAIM, RELEASE and CLEAR_FAULT -/

theorem Names.namedRail {r : Rail} (h : Names s f r) : s.namedRail (argByte f 0) = some r :=
  (s.namedRail_eq_some_iff _ r).mpr h

theorem namedRail_eq_none (h : ∀ r : Rail, ¬ Names s f r) : s.namedRail (argByte f 0) = none :=
  Option.eq_none_iff_forall_ne_some.mpr fun r hr => h r ((s.namedRail_eq_some_iff _ r).mp hr)

theorem roomUsed_leaseRestarted (s : State) (l : Link) :
    (State.session { s with sessions := s.leaseRestarted l } l).roomUsed = (s.session l).roomUsed := by
  have hsession : State.session { s with sessions := s.leaseRestarted l } l =
      { s.session l with leaseTimer := .running ((s.session l).leaseLength.toNat * 100) } :=
    (get_set ..).trans (if_pos rfl)
  rw [hsession]
  rfl

section
variable {t : State} {r : Rail}

theorem claimAnswer_noRail (h : t.namedRail (argByte f 0) = none) : claimAnswer l f t = ⟨t, .noRail, []⟩ := by
  unfold claimAnswer
  rw [h]

theorem claimAnswer_badLevel (h : t.namedRail (argByte f 0) = some r)
    (hlevel : argByte f 1 = 0 ∨ (t.record r).levelCount.toNat < (argByte f 1).toNat) :
    claimAnswer l f t = ⟨t, .badLevel, []⟩ := by
  unfold claimAnswer
  rw [h]
  exact if_pos (hlevel.imp_left fun h => by rw [h]; rfl)

/-- A CLAIM that is within the levels of its rail, by the session's room (R61). -/
theorem claimAnswer_of_level (h : t.namedRail (argByte f 0) = some r) (hzero : argByte f 1 ≠ 0)
    (hlevel : (argByte f 1).toNat ≤ (t.record r).levelCount.toNat) :
    claimAnswer l f t =
      if 24 ≤ (t.session l).roomUsed then ⟨t, .queueFull, []⟩
      else ⟨claimTaken l r (argByte f 1).toNat f.tag t, .accepted, []⟩ := by
  have hne : (argByte f 1).toNat ≠ 0 := fun h0 => hzero (BitVec.eq_of_toNat_eq h0)
  unfold claimAnswer
  rw [h]
  exact if_neg (not_or.mpr ⟨hne, Nat.not_lt.mpr hlevel⟩)

theorem releaseAnswer_noRail (h : t.namedRail (argByte f 0) = none) : releaseAnswer l f t = ⟨t, .noRail, []⟩ := by
  unfold releaseAnswer
  rw [h]

theorem releaseAnswer_zero (h : t.namedRail (argByte f 0) = some r) (hw : argByte f 1 = 0) :
    releaseAnswer l f t = ⟨releaseNow l r t, .ok, []⟩ := by
  unfold releaseAnswer
  rw [h]
  exact if_pos hw

theorem releaseAnswer_one (h : t.namedRail (argByte f 0) = some r) (hw : argByte f 1 = 1) :
    releaseAnswer l f t =
      if 24 ≤ (t.session l).roomUsed then ⟨t, .queueFull, []⟩ else ⟨releaseWaiting l r f.tag t, .accepted, []⟩ := by
  have hwait : f.waitByte = 1 := hw
  unfold releaseAnswer
  rw [h]
  dsimp only
  rw [hwait]
  rfl

theorem releaseAnswer_badArgument (h : t.namedRail (argByte f 0) = some r) (hw : 2 ≤ (argByte f 1).toNat) :
    releaseAnswer l f t = ⟨t, .badArgument, []⟩ := by
  have hwait : f.waitByte = argByte f 1 := rfl
  have hzero : argByte f 1 ≠ 0x00 := fun h0 => by
    rw [h0] at hw
    revert hw
    decide
  have hone : argByte f 1 ≠ 0x01 := fun h1 => by
    rw [h1] at hw
    revert hw
    decide
  unfold releaseAnswer
  rw [h]
  dsimp only
  rw [hwait, if_neg hzero, if_neg hone]

theorem clearFaultAnswer_noRail (h : t.namedRail (argByte f 0) = none) :
    clearFaultAnswer l f t = ⟨t, .noRail, []⟩ := by
  unfold clearFaultAnswer
  rw [h]

theorem clearFaultAnswer_notHolder (h : t.namedRail (argByte f 0) = some r) (hclaim : t.claim l r = 0) :
    clearFaultAnswer l f t = ⟨t, .notHolder, []⟩ := by
  unfold clearFaultAnswer
  rw [h]
  exact if_pos hclaim

theorem clearFaultAnswer_notFaulted (h : t.namedRail (argByte f 0) = some r) (hclaim : t.claim l r ≠ 0)
    (hlatch : (t.rail r).faultLatch = false) : clearFaultAnswer l f t = ⟨t, .notFaulted, []⟩ := by
  unfold clearFaultAnswer
  rw [h]
  exact (if_neg hclaim).trans (if_pos hlatch)

/-- A CLEAR_FAULT by a holder of a latched rail, by the rail's retry limit (R107). -/
theorem clearFaultAnswer_of_latched (h : t.namedRail (argByte f 0) = some r) (hclaim : t.claim l r ≠ 0)
    (hlatch : (t.rail r).faultLatch = true) :
    clearFaultAnswer l f t =
      if (t.record r).retryLimit.toNat ≠ 0 ∧ (t.record r).retryLimit.toNat ≤ (t.rail r).faultCount then ⟨t, .exhausted, []⟩
      else ⟨clearFaultTaken l r t, .ok, [((clearFaultTaken l r t).rail r).state.code]⟩ := by
  unfold clearFaultAnswer
  rw [h]
  exact (if_neg hclaim).trans (if_neg (by rw [hlatch]; decide))

end

/-- Settles O25. -/
theorem claimAndReleaseChecksRefuse : Obligations.ClaimAndReleaseChecksRefuse := by
  constructor
  · intro l f s st hp h
    have hroom := roomUsed_leaseRestarted s l
    have hrefused : claimAnswer l f { s with sessions := s.leaseRestarted l } =
        ⟨{ s with sessions := s.leaseRestarted l }, st, []⟩ := by
      rcases h with ⟨hnone, rfl⟩ | ⟨r, hr, hlevel, rfl⟩ | ⟨r, hr, hzero, hlevel, hfull, rfl⟩
      · exact claimAnswer_noRail (namedRail_eq_none hnone)
      · exact claimAnswer_badLevel (Names.namedRail hr) hlevel
      · exact (claimAnswer_of_level (t := { s with sessions := s.leaseRestarted l }) (Names.namedRail hr) hzero hlevel).trans
          (if_pos (by rw [hroom]; exact hfull))
    exact ⟨_, rfl, answered_unchanged hp nofun nofun hrefused⟩
  · intro c l f s st hc hp h
    have hroom := roomUsed_leaseRestarted s l
    have hrefused : releaseAnswer l f { s with sessions := s.leaseRestarted l } =
        ⟨{ s with sessions := s.leaseRestarted l }, st, []⟩ := by
      rcases h with ⟨hnone, rfl⟩ | ⟨⟨r, hr⟩, hwait, rfl⟩ | ⟨⟨r, hr⟩, hwait, hfull, rfl⟩
      · exact releaseAnswer_noRail (namedRail_eq_none hnone)
      · exact releaseAnswer_badArgument (Names.namedRail hr) hwait
      · exact (releaseAnswer_one (t := { s with sessions := s.leaseRestarted l }) (Names.namedRail hr) hwait).trans
          (if_pos (by rw [hroom]; exact hfull))
    have hanswered := answered_unchanged hp nofun nofun hrefused
    rcases hc with rfl | rfl
    · exact ⟨_, rfl, hanswered⟩
    · exact ⟨_, rfl, hanswered⟩

/-- Settles O29. -/
theorem clearFaultChecksRefuse : Obligations.ClearFaultChecksRefuse := by
  intro l f s st hp h
  have hrefused : clearFaultAnswer l f { s with sessions := s.leaseRestarted l } =
      ⟨{ s with sessions := s.leaseRestarted l }, st, []⟩ := by
    rcases h with ⟨hnone, rfl⟩ | ⟨r, hr, hclaim, rfl⟩ | ⟨r, hr, hclaim, hlatch, rfl⟩
      | ⟨r, hr, hclaim, hlatch, hretry, hcount, rfl⟩
    · exact clearFaultAnswer_noRail (namedRail_eq_none hnone)
    · exact clearFaultAnswer_notHolder (Names.namedRail hr) hclaim
    · exact clearFaultAnswer_notFaulted (Names.namedRail hr) hclaim hlatch
    · exact (clearFaultAnswer_of_latched (t := { s with sessions := s.leaseRestarted l }) (Names.namedRail hr) hclaim
        hlatch).trans (if_pos ⟨fun h0 => hretry (BitVec.eq_of_toNat_eq h0), hcount⟩)
  exact ⟨_, rfl, answered_unchanged hp nofun nofun hrefused⟩

/-! #### The part record and the reads -/

/-- Two bit fields side by side. -/
theorem toNat_append_fields {n m : Nat} (hi : BitVec n) (lo : BitVec m) :
    (hi ++ lo).toNat = hi.toNat * 2 ^ m + lo.toNat := by
  rw [BitVec.toNat_append, ← Nat.shiftLeft_add_eq_or_of_lt lo.isLt, Nat.shiftLeft_eq]

/-- Settles O45: each field as its bits stand in the bytes. -/
theorem writePartReplacesTheRecord : Obligations.WritePartReplacesTheRecord := by
  intro l f s hp
  have hserve := hp.serve_eq nofun nofun fun t => ⟨{ t with part := parsePartRecord f.args }, .ok, []⟩
  refine ⟨_, congrArg Host.Outcome.next hserve, answered_respond rfl, rfl, ?_⟩
  change (parsePartRecord f.args).budgetFull.toNat = _ ∧ (parsePartRecord f.args).budgetLow.toNat = _
    ∧ (parsePartRecord f.args).warnCode.toNat = _ ∧ (parsePartRecord f.args).critCode.toNat = _
    ∧ (parsePartRecord f.args).hysteresisCode.toNat = _ ∧ (parsePartRecord f.args).holdoffCode.toNat = _
  unfold parsePartRecord
  dsimp only
  generalize f.args.getD 0 0 = b0
  generalize f.args.getD 1 0 = b1
  generalize f.args.getD 2 0 = b2
  generalize f.args.getD 3 0 = b3
  generalize f.args.getD 4 0 = b4
  refine ⟨?_, ?_, ?_, ?_, ?_, rfl⟩
  · have := b1.isLt
    rw [toNat_append_fields, toNat_extractLsb']
    omega
  · rw [toNat_append_fields, toNat_extractLsb']
    omega
  · have := b3.isLt
    rw [toNat_extractLsb']
    omega
  · have := b4.isLt
    rw [toNat_append_fields, toNat_extractLsb', toNat_extractLsb']
    omega
  · exact toNat_extractLsb' b4 1 3

/-- Settles O46. -/
theorem readsReturnTheRecords : Obligations.ReadsReturnTheRecords := by
  constructor
  · intro l f s hp
    constructor
    · intro r hr
      have hlt : (argByte f 0).toNat < 16 := hr ▸ r.isLt
      have hrail : (⟨(argByte f 0).toNat, hlt⟩ : Rail) = r := Fin.ext hr
      have hanswer : readRailAnswer f { s with sessions := s.leaseRestarted l } =
          ⟨{ s with sessions := s.leaseRestarted l }, .ok, railRecordBytes r (s.record r)⟩ := by
        unfold readRailAnswer
        rw [dif_pos hlt, hrail]
        rfl
      exact ⟨_, rfl, answered_unchanged hp nofun nofun hanswer⟩
    · intro hr
      have hanswer : readRailAnswer f { s with sessions := s.leaseRestarted l } =
          ⟨{ s with sessions := s.leaseRestarted l }, .badArgument, []⟩ := dif_neg (Nat.not_lt.mpr hr)
      exact ⟨_, rfl, answered_unchanged hp nofun nofun hanswer⟩
  · intro l f s hp
    exact ⟨_, rfl, answered_unchanged hp nofun nofun rfl⟩

end Sys2Proof.Machine
end

/-! ### Reset, and a part before COMMIT, are coherent (R2, R49, R89, R126, R143, R158, R162, R163, R178) -/

section
namespace Sys2Proof.Machine

/-- Settles O3. -/
theorem resetTakesPowerOnValues : Obligations.ResetTakesPowerOnValues := by
  refine ⟨rfl, rfl, rfl, rfl, rfl, rfl, rfl, rfl, rfl, rfl, rfl, fun r => ?_, fun r => ?_, rfl, rfl, rfl, rfl, rfl, fun l => ?_⟩
  · rw [State.record_reset]
    exact ⟨rfl, rfl, rfl, rfl, rfl, rfl, rfl, rfl, rfl, rfl, rfl⟩
  · have hclaim (l : Link) : State.reset.claim l r = 0 := idle_reset.claim l r
    have hhold (c : Rail) : (State.reset.rail r).holdSet.get c = false := by
      rw [State.rail_reset]
      exact get_replicate ..
    rw [State.rail_reset] at hhold ⊢
    exact ⟨rfl, rfl, rfl, hclaim, hhold, rfl, rfl, rfl, rfl, rfl, rfl, rfl, rfl, rfl, rfl, rfl, rfl⟩
  · have houtstanding := idle_reset.outstanding l
    rw [State.session_reset, State.link_reset]
    exact ⟨rfl, rfl, rfl, rfl, houtstanding, rfl, rfl, rfl, rfl⟩

section
variable {s : State} (hs : Idle s) (hu : s.lifecycle = .uncommitted)
include hs

theorem Idle.linesFollow : LinesFollow s := fun r => by
  rw [hs.rails r]
  refine ⟨rfl, ?_⟩
  change 0 = lvlCode r 0
  unfold lvlCode
  split <;> rfl

theorem Idle.recordsShaped : RecordsShaped s := fun r => by
  rw [hs.rails r]
  exact recordShape_powerOn.inputs _ _ _ _ _

theorem Idle.heldFollows : HeldFollows s := fun r => by
  unfold State.heldByRule
  rw [hs.rails r]
  rfl

theorem Idle.levelsBounded : LevelsBounded s := fun r => by
  have hclaims : ∀ l, s.claim l r = 0 := fun l => hs.claim l r
  refine ⟨?_, ?_, ?_, fun l => (hclaims l).symm ▸ Nat.zero_le _, fun _ => ⟨hs.state r, hclaims⟩⟩
  all_goals
    rw [hs.rails r]
    exact Nat.zero_le _

theorem Idle.settled : Settled s where
  target r := (hs.target r).trans (hs.targetFor r).symm
  off r _ := hs.target r
  waiting r h := absurd ((hs.state r).symm.trans h) nofun
  ramping r h := absurd ((hs.state r).symm.trans h) nofun
  on r h := absurd ((hs.state r).symm.trans h) nofun
  finished r h := by
    rw [hs.rails r] at h
    cases h
  level r h := by
    rw [hs.state r] at h
    rcases h with h | h <;> cases h

theorem Idle.parentsUp : ParentsUp s := fun r h => by
  rw [hs.state r] at h
  cases h

theorem Idle.balanced : BudgetBalanced s :=
  hs.allocated.trans (heldTotal_eq_zero fun q => by rw [hs.rails q]; rfl).symm

theorem Idle.queueExact : QueueExact s where
  entry q hq := by
    rw [hs.queue] at hq
    cases hq
  once := by
    rw [hs.queue]
    exact List.nodup_nil
  every r h := absurd (hs.requestOf r) h
  order := by
    rw [hs.queue]
    exact List.Pairwise.nil
  head q hq := by
    rw [hs.queue] at hq
    cases hq

include hu

theorem Idle.supplySound : SupplySound s where
  active := by
    rw [hs.supply, hu]
    exact ⟨nofun, nofun⟩
  limit h := absurd (hu.symm.trans h) nofun
  holdoff := by
    rw [hs.supply]
    exact ⟨fun h => absurd rfl h, nofun⟩
  flagged r h := by
    rw [hs.rails r] at h
    cases h
  set h := by
    rw [hs.supply] at h
    rcases h with h | h <;> cases h
  clear _ r := by
    rw [hs.rails r]
    rfl
  collapse h := by
    rw [hs.supply] at h
    cases h

/-- A part that is idle before COMMIT is coherent where its records carry their costs and its sessions are sound. -/
theorem Idle.coherent (hcosts : ∀ r : Rail, (s.record r).costs.length = (s.record r).levelCount.toNat)
    (hsessions : SessionsSound s) : Coherent s where
  table := ⟨hcosts, fun h => absurd (hu.symm.trans h) nofun⟩
  lines := hs.linesFollow
  shape := hs.recordsShaped
  held := hs.heldFollows
  levels := hs.levelsBounded
  holds := hs.holds
  parents := hs.parentsUp
  settled := hs.settled
  balanced := hs.balanced
  within := fun h => absurd (hu.symm.trans h) nofun
  kept := hs.queueExact.toQueueKept
  supply := hs.supplySound hu
  sessions := hsessions
  outstanding l r := by
    rw [hs.outstanding l r]
    trivial
  idle := (idleBeforeCommit_iff s).mpr fun _ => hs
  head := hs.queueExact.head

end

theorem outstandingCount_eq_zero {x : Session} (h : ∀ r : Rail, x.table.get r = none) : x.outstandingCount = 0 :=
  List.countP_eq_zero.mpr fun r _ => by rw [h r]; exact nofun

/-- A session that has given up everything (R141, R143). -/
theorem SessionShape.of_empty {x : Session} (hstate : x.state ≠ .attached) (htimer : x.leaseTimer = .stopped)
    (hmask : x.mask = .empty) (htable : ∀ r : Rail, x.table.get r = none) (hqueue : x.queue = []) (hlost : x.lost = 0)
    (halert : x.alertn = .high) : SessionShape x where
  room := by
    unfold Session.roomUsed
    rw [hqueue, outstandingCount_eq_zero htable]
    exact Nat.zero_le _
  lost := by
    rw [hlost]
    exact Nat.zero_le _
  alert := by
    rw [halert, hqueue]
    exact ⟨nofun, fun h => absurd rfl h⟩
  detached _ := ⟨htimer, hmask, htable, hqueue, hlost⟩
  attached h := absurd h hstate

theorem sessionShape_powerOn : SessionShape .powerOn :=
  .of_empty nofun rfl rfl (fun _ => get_replicate ..) rfl rfl rfl

theorem sessionsSound_reset : SessionsSound State.reset := fun l => by
  rw [State.session_reset]
  exact ⟨sessionShape_powerOn, fun _ r => idle_reset.claim l r⟩

/-- Settles O4: a part that is idle before COMMIT. -/
theorem resetIsCoherent : Obligations.ResetIsCoherent :=
  idle_reset.coherent rfl (fun r => by rw [State.record_reset]; rfl) sessionsSound_reset

end Sys2Proof.Machine
end

/-! ### Commands whose whole effect is said at once (R21, R150, R158, R178) -/

section
namespace Sys2Proof.Machine

/-- Settles O59: the two cases of the room. -/
theorem noticesAreAdmittedOrCounted : Obligations.NoticesAreAdmittedOrCounted := by
  intro s l reserved code rail level d
  rcases s.offerNotice_cases l reserved code rail level d with ⟨hroom, h⟩ | ⟨hfull, h⟩
  · have hlt : (s.session l).roomUsed + reserved < 24 := hroom
    rw [h, if_pos hlt]
    rfl
  · have hnot : ¬ (s.session l).roomUsed + reserved < 24 := Nat.not_lt.mpr hfull
    rw [h, if_neg hnot]
    rfl

/-- Settles O34: the cases of R21 in which no rule acts. -/
theorem otherPgChangesAreOnlyTaken : Obligations.OtherPgChangesAreOnlyTaken := by
  intro r level s h
  have hexec : exec (.pgChangeTaken r level) s = .next (pgChange r level s) := rfl
  have htaken : s.modRail r (fun x => { x with pg := level }) =
      { s with rails := s.rails.set r.val { s.rail r with pg := level } r.isLt } := rfl
  rw [hexec, ← htaken]
  congr 1
  unfold pgChange
  dsimp only
  split
  · next hpg =>
    have hsame : ({ s.rail r with pg := level } : RailRuntime) = s.rail r := by rw [← hpg]
    rw [htaken, hsame]
    have hset : s.rails.set r.val (s.rail r) r.isLt = s.rails := vector_eq_of_get fun q => by
      rw [get_set]
      split
      · next hq => rw [hq]; rfl
      · rfl
    rw [hset]
  · split
    · next hacts =>
      rcases h with hu | hm | ⟨hrises, hfalls⟩
      · have hactive := hacts.1
        simp [State.activeRail, hu] at hactive
      · exact absurd (hm.symm.trans hacts.2) nofun
      · split
        · exact absurd ⟨‹_›, rfl⟩ hrises
        · exact absurd ⟨‹_›, rfl⟩ hfalls
        · rfl
    · rfl

theorem serve_responds {s : State} {k : Kind} {l : Link} {f : Frame} (body : State → Answer)
    (h : (s.link l).receiver = .request) : ∃ u st data, s.serve k l f body = State.respond u l f.tag st data := by
  unfold State.serve
  rw [if_pos h]
  split
  · exact ⟨_, _, _, rfl⟩
  · split
    · exact ⟨_, _, _, rfl⟩
    · dsimp only
      split
      · exact ⟨_, _, _, rfl⟩
      · exact ⟨_, _, _, rfl⟩

/-- Settles O55: line by line. -/
theorem linkLinesMoveTheReceiver : Obligations.LinkLinesMoveTheReceiver := by
  intro l s
  have hfall : exec (.csnFall l) s = .next (csnFall l s) := rfl
  have hrise : exec (.csnRise l) s = .next (csnRise l s) := rfl
  have hdiscard : exec (.frameDiscard l) s = .next (csnRise l s) := rfl
  have hend : exec (.responseEnd l) s = .next (responseEnd l s) := rfl
  have hrelease : exec (.linkResetRelease l) s = .next (linkResetRelease l s) := rfl
  refine ⟨fun hcsn hidle hlrstn hresetn => ?_, fun hcsn hheld => ?_, fun hcsn => ?_, fun hcsn => ?_, fun hcsn => ?_,
    fun bytes h => ?_, fun h => ?_, rfl, fun h => by rw [h]; rfl, fun h => by rw [h]; rfl,
    fun bytes h => by rw [h]; rfl, fun h => by rw [h]; rfl, fun c k f hc h => ?_⟩
  · rw [hfall, csnFall, if_neg (by rw [hcsn]; nofun)]
    simp only [State.modLink, if_pos (And.intro hidle (And.intro hlrstn hresetn))]
  · have hnot : ¬ ((s.link l).receiver = .idle ∧ (s.link l).lrstn = .high ∧ s.resetn = .high) := by
      rintro ⟨hidle, hlrstn, hresetn⟩
      rcases hheld with h | h | h
      · exact h hidle
      · exact nomatch hlrstn.symm.trans h
      · exact nomatch hresetn.symm.trans h
    rw [hfall, csnFall, if_neg (by rw [hcsn]; nofun)]
    simp only [State.modLink, if_neg hnot]
  · rw [hfall, csnFall, if_pos hcsn]
  · have hmoved : csnRise l s = _ := if_neg (by rw [hcsn]; nofun)
    rw [hrise, hdiscard, hmoved]
    exact ⟨rfl, rfl⟩
  · have hstays : csnRise l s = s := if_pos hcsn
    rw [hrise, hdiscard, hstays]
    exact ⟨rfl, rfl⟩
  · rw [hend, responseEnd, h]
    rfl
  · rw [hrelease, linkResetRelease, if_neg (by rw [h]; nofun)]
    rfl
  · obtain ⟨body, v, hexec⟩ := exec_request s hc
    obtain ⟨u, st, data, hresponds⟩ := serve_responds (s := { s with sense := v }) (k := k) (f := f) body h
    refine ⟨_, st, data, hexec, ?_⟩
    have hlink : ((State.respond u l f.tag st data).link l).receiver = .response (responseFrame st f.tag data) := by
      have h : (State.respond u l f.tag st data).link l = _ := (get_set ..).trans (if_pos rfl)
      rw [h]
    rw [hresponds, hlink]
    rfl

end Sys2Proof.Machine
end

/-! ### The queries (R184, R185) -/

section
namespace Sys2Proof.Machine

variable {l : Link} {f : Frame} {s : State}

theorem twoBytes_append (w : BitVec 16) : w.extractLsb' 8 8 ++ w.extractLsb' 0 8 = w := by
  apply BitVec.eq_of_toNat_eq
  have := w.isLt
  rw [toNat_append_bytes, BitVec.extractLsb'_toNat, BitVec.extractLsb'_toNat, Nat.shiftRight_eq_div_pow]
  omega

theorem wordBytes_eq (n : Nat) : wordBytes n = [BitVec.ofNat 8 (n / 256), BitVec.ofNat 8 n] := by
  unfold wordBytes twoBytes
  congr 1
  · apply BitVec.eq_of_toNat_eq
    rw [BitVec.extractLsb'_toNat, BitVec.toNat_ofNat, BitVec.toNat_ofNat, Nat.shiftRight_eq_div_pow]
    omega
  · congr 1
    apply BitVec.eq_of_toNat_eq
    rw [BitVec.extractLsb'_toNat, BitVec.toNat_ofNat, BitVec.toNat_ofNat, Nat.shiftRight_eq_div_pow]
    omega

/-- The bits of the hold-set field are the members of the hold set. -/
theorem getLsbD_holdSetField (h : Vector Bool 16) (c : Rail) : (holdSetField h).getLsbD c.val = h.get c := by
  have hfold : ∀ (rs : List Rail) (w : BitVec 16),
      (rs.foldl (fun w r => if h.get r then w ||| (1#16 <<< r.val) else w) w).getLsbD c.val =
        (w.getLsbD c.val || decide (c ∈ rs) && h.get c) := by
    intro rs
    induction rs with
    | nil => simp
    | cons r rs ih =>
      intro w
      rw [List.foldl_cons, ih]
      by_cases hc : c = r
      · subst hc
        cases hget : h.get c <;> simp
      · have hbit : (1#16 <<< r.val).getLsbD c.val = false := by
          have hne : c.val ≠ r.val := fun hv => hc (Fin.ext hv)
          rw [BitVec.getLsbD_shiftLeft, BitVec.getLsbD_one]
          simp
          omega
        have hmem : decide (c ∈ r :: rs) = decide (c ∈ rs) := by simp [hc]
        rw [hmem]
        split
        · rw [BitVec.getLsbD_or, hbit, Bool.or_false]
        · rfl
  unfold holdSetField
  rw [hfold, decide_eq_true (mem_allRails c), Bool.true_and]
  simp

theorem flagByte_toNat (a b : Bool) :
    (BitVec.ofNat 6 0 ++ BitVec.ofBool a ++ BitVec.ofBool b : Byte).toNat = (if b then 1 else 0) + if a then 2 else 0 := by
  cases a <;> cases b <;> rfl

theorem outstanding_leaseRestarted (s : State) (l : Link) (r : Rail) :
    State.outstanding { s with sessions := s.leaseRestarted l } l r = s.outstanding l r := by
  have hsession : State.session { s with sessions := s.leaseRestarted l } l =
      { s.session l with leaseTimer := .running ((s.session l).leaseLength.toNat * 100) } :=
    (get_set ..).trans (if_pos rfl)
  unfold State.outstanding
  rw [hsession]

theorem queryRailData_leaseRestarted (s : State) (l : Link) (r : Rail) :
    queryRailData { s with sessions := s.leaseRestarted l } l r = queryRailData s l r := by
  unfold queryRailData
  rw [outstanding_leaseRestarted]
  rfl

/-- Settles O50. -/
theorem queryRailReportsTheRail : Obligations.QueryRailReportsTheRail := by
  intro l f s hp
  constructor
  · intro r hr
    have hlt : (argByte f 0).toNat < 16 := hr ▸ r.isLt
    have hrail : (⟨(argByte f 0).toNat, hlt⟩ : Rail) = r := Fin.ext hr
    have hanswer : queryRailAnswer l f { s with sessions := s.leaseRestarted l } =
        ⟨{ s with sessions := s.leaseRestarted l }, .ok, queryRailData s l r⟩ := by
      rw [← queryRailData_leaseRestarted]
      unfold queryRailAnswer
      rw [dif_pos hlt, hrail]
    obtain ⟨hanswered, hrest⟩ := answered_unchanged hp nofun nofun hanswer
    have hdata : queryRailData s l r =
        [(s.rail r).state.code, BitVec.ofNat 8 (s.rail r).level, BitVec.ofNat 8 (s.rail r).target,
          BitVec.ofNat 8 (s.rail r).claimDemand, BitVec.ofNat 8 (s.claim l r),
          (holdSetField (s.rail r).holdSet).extractLsb' 8 8, (holdSetField (s.rail r).holdSet).extractLsb' 0 8,
          BitVec.ofNat 6 0 ++ BitVec.ofBool (s.outstanding l r).isSome ++ BitVec.ofBool (s.rail r).suspended,
          waitCode (s.waitReason r), faultCode (s.rail r).faultKind, BitVec.ofNat 8 (s.rail r).faultCount,
          (s.rail r).drainCause.code, BitVec.ofNat 8 ((s.rail r).held / 256), BitVec.ofNat 8 (s.rail r).held] := by
      unfold queryRailData
      dsimp only
      rw [wordBytes_eq]
      rfl
    rw [hdata] at hanswered
    refine ⟨_, _, _, _, rfl, hanswered, fun c => ?_, flagByte_toNat .., hrest⟩
    rw [twoBytes_append]
    exact getLsbD_holdSetField _ c
  · intro hr
    have hanswer : queryRailAnswer l f { s with sessions := s.leaseRestarted l } =
        ⟨{ s with sessions := s.leaseRestarted l }, .noRail, []⟩ := dif_neg (Nat.not_lt.mpr hr)
    exact ⟨_, rfl, answered_unchanged hp nofun nofun hanswer⟩

theorem sessionState_leaseRestarted (s : State) (l m : Link) :
    (State.session { s with sessions := s.leaseRestarted l } m).state = (s.session m).state := by
  have hsession : State.session { s with sessions := s.leaseRestarted l } m = _ := get_set ..
  rw [hsession]
  split
  · next hm => rw [hm]
  · rfl

theorem queryPartData_leaseRestarted (s : State) (l : Link) :
    queryPartData { s with sessions := s.leaseRestarted l } = queryPartData s := by
  unfold queryPartData
  simp only [sessionState_leaseRestarted]
  rfl

/-- The two bytes of a queue entry as one number (R191). -/
theorem queueEntryBytes_toNat (q : QueueEntry) (h : q.amount < 1024) :
    ∃ hi lo, queueEntryBytes q = [hi, lo]
      ∧ hi.toNat * 256 + lo.toNat = q.rail.val * 4096 + (if q.kind = .raise then 2048 else 0) + q.amount := by
  refine ⟨_, _, rfl, ?_⟩
  have hrail := q.rail.isLt
  have hbit : q.kind.bit.toNat = if q.kind = .raise then 1 else 0 := by cases q.kind <;> rfl
  rw [← toNat_append_bytes, twoBytes_append]
  simp only [toNat_append_fields, BitVec.toNat_ofNat, hbit]
  rw [Nat.mod_eq_of_lt (by omega), Nat.mod_eq_of_lt (show q.amount < 2 ^ 10 by omega)]
  split <;> omega

/-- Entry `i` of a list of byte pairs stands at the places `2 i` and `2 i + 1`. -/
theorem getD_flatMap_pairs {α : Type} (g : α → List Byte) (hg : ∀ a, ∃ hi lo, g a = [hi, lo]) (xs : List α) (i : Nat) (a : α)
    (h : xs[i]? = some a) :
    [(xs.flatMap g).getD (2 * i) 0, (xs.flatMap g).getD (2 * i + 1) 0] = g a := by
  induction xs generalizing i with
  | nil => cases h
  | cons x xs ih =>
    obtain ⟨hi, lo, hx⟩ := hg x
    rw [List.flatMap_cons, hx]
    cases i with
    | zero =>
      cases h
      exact hx.symm
    | succ i => exact ih i h

theorem length_flatMap_pairs {α : Type} (g : α → List Byte) (hg : ∀ a, ∃ hi lo, g a = [hi, lo]) (xs : List α) :
    (xs.flatMap g).length = 2 * xs.length := by
  induction xs with
  | nil => rfl
  | cons x xs ih =>
    obtain ⟨hi, lo, hx⟩ := hg x
    rw [List.flatMap_cons, hx, List.length_append, ih, List.length_cons]
    simp only [List.length_cons, List.length_nil]
    omega

/-- Settles O52. -/
theorem queryPartReportsThePart : Obligations.QueryPartReportsThePart := by
  intro l f s hp
  have hpair (q : QueueEntry) : ∃ hi lo, queueEntryBytes q = [hi, lo] := ⟨_, _, rfl⟩
  have hdata : queryPartData s =
      [s.lifecycle.code, (if s.supply.active then s.supply.state else .normal).code,
        BitVec.ofNat 8 (s.limit / 256), BitVec.ofNat 8 s.limit,
        BitVec.ofNat 8 (s.allocated / 256), BitVec.ofNat 8 s.allocated,
        (s.session 0).state.code, (s.session 1).state.code, (s.session 2).state.code, (s.session 3).state.code,
        s.timestamp.extractLsb' 8 8, s.timestamp.extractLsb' 0 8,
        BitVec.ofNat 8 s.budgetQueue.length] ++ s.budgetQueue.flatMap queueEntryBytes := by
    unfold queryPartData
    rw [wordBytes_eq, wordBytes_eq]
    rfl
  have hanswer : (fun t : State => (⟨t, .ok, queryPartData t⟩ : Answer)) { s with sessions := s.leaseRestarted l } =
      ⟨{ s with sessions := s.leaseRestarted l }, .ok, queryPartData s⟩ := by
    rw [← queryPartData_leaseRestarted s l]
  obtain ⟨hanswered, hrest⟩ :=
    answered_unchanged (body := fun t => ⟨t, .ok, queryPartData t⟩) hp nofun nofun hanswer
  rw [hdata] at hanswered
  refine ⟨_, _, rfl, hanswered, length_flatMap_pairs _ hpair _, fun i q hq hamount => ?_, hrest⟩
  obtain ⟨hi, lo, hbytes, hvalue⟩ := queueEntryBytes_toNat q hamount
  have hat := getD_flatMap_pairs queueEntryBytes hpair s.budgetQueue i q hq
  rw [hbytes] at hat
  obtain ⟨hfirst, hsecond⟩ := List.cons.inj hat
  rw [hfirst, (List.cons.inj hsecond).1]
  exact hvalue

end Sys2Proof.Machine
end

/-! ### Rail events, ends of sessions, ticks (R21, R22, R43, R137 to R141, R158) -/

section
namespace Sys2Proof.Machine

theorem Reaction.refl (s : State) : Reaction s s := reaction_of_heard (.refl s) (.refl s) (.refl s)

/-- A reaction takes no notice of the links. -/
theorem Reaction.withLinks {s t : State} (h : Reaction s t) (x : Vector LinkPort 4) :
    Reaction { s with links := x } { t with links := x } where
  rest := by rw [h.rest]
  claims := h.claims
  suspended := h.suspended
  pg := h.pg
  faulted := h.faulted
  fault := h.fault
  cause := h.cause
  session := h.session
  unattached := h.unattached
  grows := h.grows
  leaves := h.leaves

/-- Settles O23: the two teardowns by events. -/
theorem leaseExpiryAndLinkResetTearDown : Obligations.LeaseExpiryAndLinkResetTearDown := by
  constructor
  · intro l s hstate htimer
    have hexec : exec (.leaseExpiry l) s = .next (teardown l .expired s) :=
      congrArg Host.Outcome.next (if_pos ⟨hstate, by rw [htimer]; rfl⟩)
    exact ⟨_, hexec, session_teardown l s nofun, claim_teardown l .expired s, reaction_teardown l .expired s⟩
  · intro l s hhigh
    let low : State := s.modLink l fun x => { x with lrstn := .low, receiver := .idle }
    have hexec : exec (.linkReset l) s = .next (teardown l .detached low) :=
      congrArg Host.Outcome.next (if_neg (by rw [hhigh]; nofun))
    refine ⟨_, hexec, session_teardown l low nofun, claim_teardown l .detached low, links_teardown l .detached low, ?_⟩
    exact (reaction_teardown l .detached low).withLinks s.links

/-- A change of one record ahead of a reaction that leaves alone what reactions leave alone, and the drain cause. -/
structure RecordLeads (x y : RailRuntime) : Prop where
  claims : y.claims = x.claims
  suspended : y.suspended = x.suspended
  pg : y.pg = x.pg
  faulted : x.state = .fault → y = { x with target := y.target, holdSet := y.holdSet }
  fault : (y.faultLatch = x.faultLatch ∧ y.faultKind = x.faultKind ∧ y.faultCount = x.faultCount)
    ∨ (y.state = .fault ∧ y.faultLatch = true ∧ y.faultKind ≠ none
      ∧ y.faultCount = min (x.faultCount + 1) Config.faultCountMax)
  cause : y.drainCause = x.drainCause

theorem RecordLeads.refl (x : RailRuntime) : RecordLeads x x :=
  ⟨rfl, rfl, rfl, fun _ => rfl, .inl ⟨rfl, rfl, rfl⟩, rfl⟩

theorem RecordLeads.withHoldSet {x y : RailRuntime} (h : RecordLeads x y) (hs : Vector Bool 16) :
    RecordLeads x { y with holdSet := hs } :=
  ⟨h.claims, h.suspended, h.pg, fun hx => by rw [h.faulted hx], h.fault, h.cause⟩

/-- Such changes ahead of a reaction make one reaction with it. -/
theorem Reaction.ahead {s m t : State} (ho : OnlyRails s m) (hrail : ∀ r, RecordLeads (s.rail r) (m.rail r))
    (h' : Reaction m t) : Reaction s t where
  rest := by rw [h'.rest, ho]
  claims r := (h'.claims r).trans (hrail r).claims
  suspended r := (h'.suspended r).trans (hrail r).suspended
  pg r := (h'.pg r).trans (hrail r).pg
  faulted r hr := by
    have hm := (hrail r).faulted hr
    rw [h'.faulted r (by rw [hm]; exact hr), hm]
  fault r := by
    rcases (hrail r).fault with ⟨hlatch, hkind, hcount⟩ | ⟨hstate, hlatch, hkind, hcount⟩
    · have ht := h'.fault r
      rw [hlatch, hkind, hcount] at ht
      exact ht
    · have ht := h'.faulted r hstate
      rw [ht]
      exact .inr ⟨hstate, hlatch, hkind, hcount⟩
  cause r := (h'.cause r).imp_left fun ht => ht.trans (hrail r).cause
  session l := ho.session l ▸ h'.session l
  unattached l hl := (h'.unattached l (by rwa [ho.session l])).trans (ho.session l)
  grows l := ho.session l ▸ h'.grows l
  leaves l r := by
    have ht := h'.leaves l r
    rwa [show m.outstanding l r = s.outstanding l r by unfold State.outstanding; rw [ho.session l]] at ht

theorem recordLeads_of_becomes {s m : State} {r : Rail} {y : RailRuntime} (h : Becomes s m r y)
    (hy : RecordLeads (s.rail r) y) (q : Rail) : RecordLeads (s.rail q) (m.rail q) := by
  rw [h q]
  refine RecordLeads.withHoldSet ?_ _
  split
  · next hq => rwa [hq]
  · exact .refl _

theorem recordLeads_toFault {x : RailRuntime} (r : Rail) (k : FaultKind) (h : x.state ≠ .fault) :
    RecordLeads x (x.toFault r k) :=
  ⟨rfl, rfl, rfl, fun hx => absurd hx h, .inr ⟨rfl, rfl, nofun, rfl⟩, rfl⟩

theorem reaction_drainExpiry (r : Rail) (s : State) : Reaction s (drainExpiry r s) := by
  unfold drainExpiry
  split
  · next h =>
    have hne : (s.rail r).state ≠ .fault := by
      rw [h.1]
      nofun
    split
    · exact .ahead (onlyRails_enterFault s r .drainStuck)
        (recordLeads_of_becomes (becomes_enterFault s r .drainStuck) (recordLeads_toFault r .drainStuck hne))
        (reaction_fail_enterFault r .drainStuck s)
    · let finished : RailRuntime → RailRuntime := fun x => { x with timer := .stopped, drainFinished := true }
      have hleads : RecordLeads (s.rail r) (finished (s.rail r)) :=
        ⟨rfl, rfl, rfl, fun hx => absurd hx hne, .inl ⟨rfl, rfl, rfl⟩, rfl⟩
      exact .ahead (onlyRails_modRail s r finished) (recordLeads_of_becomes (becomes_modRail s r finished) hleads)
        (reaction_railTurn none [] ⟨s.modRail r finished, []⟩)
  · exact .refl s

theorem reaction_rampExpiry (r : Rail) (s : State) : Reaction s (rampExpiry r s) := by
  unfold rampExpiry
  split
  · next h =>
    have hfree : (s.rail r).state.free := by
      rw [h.1]
      exact ⟨nofun, nofun⟩
    split
    · exact reaction_fail .rampTimeout hfree
    · exact reaction_reachOn hfree
  · exact .refl s

theorem reaction_slewExpiry (r : Rail) (s : State) : Reaction s (slewExpiry r s) := by
  unfold slewExpiry
  split
  · next h =>
    have hfree : (s.rail r).state.free := by
      rw [h.1]
      exact ⟨nofun, nofun⟩
    split
    · exact reaction_fail .slewFail hfree
    · exact reaction_reachOn hfree
  · exact .refl s

theorem reaction_deferredOffTaken (r : Rail) (s : State) : Reaction s (deferredOffTaken r s) := by
  unfold deferredOffTaken
  dsimp only
  split
  · next h =>
    exact reaction_conclude none [] (s.finishDrain r) s _
      ((onlyRails_finishDrain s r).trans (onlyRails_railEvent ⟨s.finishDrain r, [.enteredOff r]⟩))
      ((railsReact_finishDrain h.1 h.2.1).trans (railsReact_railEvent ⟨s.finishDrain r, [.enteredOff r]⟩))
  · exact .refl s

/-- A filtered PG that has the level already. -/
theorem State.setPg_self {s : State} {r : Rail} {level : Line} (h : (s.rail r).pg = level) :
    s.modRail r (fun x => { x with pg := level }) = s := by
  have hsame : ({ s.rail r with pg := level } : RailRuntime) = s.rail r := by rw [← h]
  have hset : s.rails.set r.val (s.rail r) r.isLt = s.rails := vector_eq_of_get fun q => by
    rw [get_set]
    split
    · next hq => rw [hq]; rfl
    · rfl
  unfold State.modRail State.setRail
  dsimp only
  rw [hsame, hset]

theorem reaction_pgChange (r : Rail) (level : Line) (s : State) :
    Reaction (s.modRail r fun x => { x with pg := level }) (pgChange r level s) := by
  have hstate : ((s.modRail r fun x => { x with pg := level }).rail r).state = (s.rail r).state := by simp
  unfold pgChange
  dsimp only
  split
  · next h =>
    rw [State.setPg_self h]
    exact .refl s
  · split
    · split
      · exact reaction_reachOn (by rw [hstate, ‹(s.rail r).state = .ramping›]; exact ⟨nofun, nofun⟩)
      · exact reaction_fail .pgLost (by rw [hstate, ‹(s.rail r).state = .on›]; exact ⟨nofun, nofun⟩)
      · exact .refl _
    · exact .refl _

/-- Settles O33: each rail event is a reaction, to the state with the filtered PG written where the event is a PG change. -/
theorem railEventsWriteNoMore : Obligations.RailEventsWriteNoMore := by
  constructor
  · intro c s t r hc h
    rcases hc with rfl | rfl | rfl | rfl | rfl | rfl
    · cases h; exact reaction_rampExpiry r s
    · cases h; exact reaction_slewExpiry r s
    · cases h; exact reaction_drainExpiry r s
    · cases h; exact reaction_deferredOffTaken r s
    · cases h; exact reaction_grantHead r .start s
    · cases h; exact reaction_grantHead r .raise s
  · intro s t r level h
    cases h
    exact reaction_pgChange r level s

/-! ### What a target asks of its rail (R54) -/

theorem RailRuntime.trimmed_of_ne {x : RailRuntime} (rec : RailRecord) (h : x.state ≠ .slewing) : x.trimmed rec = x.held :=
  if_neg h

section
variable (r : Rail) (s : State) (log : List Announcement)

theorem actOnTarget_off (h : (s.rail r).state = .off) (ht : (s.rail r).target ≠ 0) :
    (actOnTarget r ⟨s, log⟩).st = s.enterWaiting r := by
  unfold actOnTarget
  dsimp only
  rw [h]
  dsimp only
  rw [if_neg ht]
  rfl

theorem actOnTarget_waiting (h : (s.rail r).state = .waiting) (ht : (s.rail r).target = 0) :
    (actOnTarget r ⟨s, log⟩).st = s.leaveWaiting r := by
  unfold actOnTarget
  dsimp only
  rw [h]
  dsimp only
  rw [if_pos ht]
  rfl

theorem actOnTarget_drain (h : (s.rail r).state = .ramping ∨ (s.rail r).state = .on) (ht : (s.rail r).target = 0) :
    (actOnTarget r ⟨s, log⟩).st = s.enterDraining r .normal := by
  unfold actOnTarget
  dsimp only
  rcases h with h | h
  · rw [h]
    dsimp only
    rw [if_pos ht]
    rfl
  · rw [h]
    dsimp only
    unfold examineTarget
    dsimp only
    rw [if_pos ht]
    rfl

theorem actOnTarget_slewDown (h : (s.rail r).state = .on) (h0 : (s.rail r).target ≠ 0)
    (ht : (s.rail r).target < (s.rail r).level) : (actOnTarget r ⟨s, log⟩).st = s.enterSlewing r := by
  unfold actOnTarget
  dsimp only
  rw [h]
  dsimp only
  unfold examineTarget
  dsimp only
  rw [if_neg h0, if_pos ht]
  rfl

/-- The states and targets at which there is nothing to do. -/
theorem actOnTarget_same
    (h : (s.rail r).state = .slewing ∨ (s.rail r).state = .draining ∨ (s.rail r).state = .fault
      ∨ ((s.rail r).state = .ramping ∧ (s.rail r).target ≠ 0) ∨ ((s.rail r).state = .waiting ∧ (s.rail r).target ≠ 0)
      ∨ ((s.rail r).state = .on ∧ (s.rail r).level ≤ (s.rail r).target ∧ (s.rail r).target ≠ 0)
      ∨ ((s.rail r).state = .off ∧ (s.rail r).target = 0)) : actOnTarget r ⟨s, log⟩ = ⟨s, log⟩ := by
  unfold actOnTarget
  dsimp only
  rcases h with h | h | h | ⟨h, ht⟩ | ⟨h, ht⟩ | ⟨h, hle, ht⟩ | ⟨h, ht⟩
  · rw [h]
  · rw [h]
  · rw [h]
  · rw [h]
    dsimp only
    rw [if_neg ht]
  · rw [h]
    dsimp only
    rw [if_neg ht]
  · rw [h]
    dsimp only
    unfold examineTarget
    dsimp only
    rw [if_neg ht, if_neg (Nat.not_lt.mpr hle)]
  · rw [h]
    dsimp only
    rw [if_pos ht]

end

/-- Settles O38: state by state, by what each move makes of the record. -/
theorem targetChangeActsByState : Obligations.TargetChangeActsByState := by
  intro r s log x y
  refine ⟨fun h ht => ?_, fun h ht => ?_, fun h ht => ?_, fun h h0 ht => ?_, fun h => ?_⟩
  · have hy : SameButHolds (x.toWaiting r) y := by
      have hself := (becomes_enterWaiting s r).self
      rwa [← actOnTarget_off r s log h ht] at hself
    rw [hy]
    exact ⟨rfl, rfl, rfl⟩
  · have hy : SameButHolds (x.toOff r) y := by
      have hself := (becomes_leaveWaiting s r).self
      rwa [← actOnTarget_waiting r s log h ht] at hself
    rw [hy]
    exact ⟨rfl, rfl, rfl⟩
  · have hy : SameButHolds (x.toDraining r (s.record r) .normal) y := by
      have hself := (becomes_enterDraining s r .normal).self
      rwa [← actOnTarget_drain r s log h ht] at hself
    have hne : x.state ≠ .slewing := by
      rcases h with h | h <;> rw [h] <;> nofun
    rw [hy]
    exact ⟨rfl, rfl, rfl, RailRuntime.trimmed_of_ne _ hne, rfl, rfl⟩
  · have hy : SameButHolds (x.toSlewing r (s.record r).slewTime.toNat) y := by
      have hself := (becomes_enterSlewing s r).self
      rwa [← actOnTarget_slewDown r s log h h0 ht] at hself
    rw [hy]
    exact ⟨rfl, rfl, rfl, rfl, rfl, rfl, rfl⟩
  · rw [actOnTarget_same r s log h]

/-! ### Ticks, and commands that are not due (R158; log 3, 5, 6, 10) -/

theorem Timer.expired_iff (t : Timer) : t.expired = true ↔ t = .running 0 := beq_iff_eq

/-- What the grant rule makes of an entry: the amount its rail asks for now, or nothing where the rail asks no more (R79, R81,
R82). -/
def State.revised (s : State) (q : QueueEntry) : Option QueueEntry :=
  match s.requestOf q.rail with
  | some (k, amount) => if k = q.kind then some { q with amount := amount } else none
  | none => none

theorem State.reconcile_eq (s : State) : s.reconcile = { s with budgetQueue := s.budgetQueue.filterMap s.revised } := rfl

theorem State.revised_of_asks {s : State} {q : QueueEntry} (h : s.requestOf q.rail = some (q.kind, q.amount)) :
    s.revised q = some q := by
  unfold State.revised
  rw [h]
  exact if_pos rfl

theorem filterMap_eq_self {α : Type} {f : α → Option α} {xs : List α} (h : ∀ x ∈ xs, f x = some x) : xs.filterMap f = xs := by
  induction xs with
  | nil => rfl
  | cons x xs ih =>
    rw [List.filterMap_cons_some (h x List.mem_cons_self), ih fun y hy => h y (List.mem_cons_of_mem x hy)]

/-- Entries that their rails still ask for, each for its own amount, stay as they are. -/
theorem QueueKept.reconcile {s : State} (h : QueueKept s) : s.reconcile = s := by
  rw [State.reconcile_eq, filterMap_eq_self fun q hq => State.revised_of_asks (h.entry q hq).1]

/-- Between events no grant is due (R83; log 5). -/
theorem grantHead_of_coherent {s : State} (h : Coherent s) (r : Rail) (k : GrantKind) : grantHead r k s = s := by
  unfold grantHead
  rw [h.kept.reconcile]
  split
  · next q rest hq =>
    obtain ⟨hpos, hwaits⟩ := h.head q (by rw [hq]; rfl)
    refine if_neg fun hfits => ?_
    rcases (s.fits_iff q.amount).mp hfits.2.2 with h0 | hle
    · omega
    · omega
  · rfl

/-- Between events no deferred end is due (R43; log 6). -/
theorem deferredOffTaken_of_coherent {s : State} (h : Coherent s) (r : Rail) : deferredOffTaken r s = s :=
  if_neg fun hdue => Bool.false_ne_true (hdue.2.2.symm.trans (h.settled.finished r hdue.2.1))

/-- Settles O56. -/
theorem ticksRunTimersAndExpiriesWaitForThem : Obligations.TicksRunTimersAndExpiriesWaitForThem := by
  refine ⟨fun s => ?_, fun r s h => ?_, fun r s h => ?_, fun r s h => ?_, fun l s h => ?_, fun s h => ?_, fun r s h => ?_⟩
  · intro oneLess
    have htick : oneLess = Timer.tick := by
      funext x
      cases x <;> rfl
    have hexec : exec .timestampTick s = .next { s.tickTimers with timestamp := s.timestamp + 1 } := rfl
    rw [htick, hexec, State.tickTimers_eq]
  · exact congrArg Host.Outcome.next (if_neg (by rwa [Timer.expired_iff]))
  · exact congrArg Host.Outcome.next (if_neg (by rwa [Timer.expired_iff]))
  · exact congrArg Host.Outcome.next (if_neg (by rwa [Timer.expired_iff]))
  · exact congrArg Host.Outcome.next (if_neg (by rwa [Timer.expired_iff]))
  · exact congrArg Host.Outcome.next (if_neg (by rwa [Timer.expired_iff]))
  · exact ⟨congrArg Host.Outcome.next (deferredOffTaken_of_coherent h r),
      congrArg Host.Outcome.next (grantHead_of_coherent h r .start),
      congrArg Host.Outcome.next (grantHead_of_coherent h r .raise)⟩

end Sys2Proof.Machine
end

/-! ### What a request leaves alone of the other links and sessions (R136, R139, R142, R178) -/

section
namespace Sys2Proof.Machine

/-- From `s` to `t` no link but `l` has changed, and of no session but `l` more than what announcements write. -/
structure OthersKept (l : Link) (s t : State) : Prop where
  other : ∀ m : Link, m ≠ l → t.link m = s.link m ∧ t.session m =
    { s.session m with
      table := (t.session m).table
      queue := (t.session m).queue
      lost := (t.session m).lost
      alertn := (t.session m).alertn }

variable {l : Link} {s t u : State}

theorem OthersKept.refl (l : Link) (s : State) : OthersKept l s s := ⟨fun _ _ => ⟨rfl, rfl⟩⟩

theorem OthersKept.trans (h : OthersKept l s t) (h' : OthersKept l t u) : OthersKept l s u where
  other m hm := by
    obtain ⟨hlink, hsession⟩ := h.other m hm
    obtain ⟨hlink', hsession'⟩ := h'.other m hm
    exact ⟨hlink'.trans hlink, by rw [hsession', hsession]⟩

theorem OthersKept.of_reaction (h : Reaction s t) : OthersKept l s t where
  other m _ := by
    refine ⟨?_, h.session m⟩
    rw [h.rest]
    rfl

theorem OthersKept.of_heard (h : Heard s t) : OthersKept l s t where
  other m _ := by
    refine ⟨?_, h.session m⟩
    rw [h.rest]
    rfl

/-- Changes beside the sessions and the links. -/
theorem OthersKept.of_eq (hlinks : t.links = s.links) (hsessions : t.sessions = s.sessions) : OthersKept l s t where
  other _ _ := by
    unfold State.link State.session
    rw [hlinks, hsessions]
    exact ⟨rfl, rfl⟩

theorem othersKept_modSession (s : State) (l : Link) (f : Session → Session) : OthersKept l s (s.modSession l f) where
  other m hm := by
    rw [State.session_modSession, if_neg hm]
    exact ⟨rfl, rfl⟩

theorem othersKept_modLink (s : State) (l : Link) (f : LinkPort → LinkPort) : OthersKept l s (s.modLink l f) where
  other _ hm := ⟨(get_set ..).trans (if_neg hm), rfl⟩

theorem othersKept_respond (s : State) (l : Link) (tag : Byte) (st : Status) (data : List Byte) :
    OthersKept l s (s.respond l tag st data) := othersKept_modLink s l _

theorem othersKept_renewLease (s : State) (l : Link) : OthersKept l s (s.renewLease l) := by
  unfold State.renewLease
  split
  · exact othersKept_modSession s l _
  · exact .refl l s

theorem othersKept_resolve (s : State) (l : Link) (r : Rail) (code : EventCode) (level : Nat) (d : Detail) :
    OthersKept l s (s.resolve l r code level d) := by
  rcases s.resolve_cases l r code level d with ⟨-, he⟩ | ⟨o, -, he⟩
  · rw [he]
    exact .refl l s
  · rw [he]
    exact (othersKept_modSession s l _).trans (othersKept_modSession _ l _)

theorem othersKept_setUp (l : Link) (r : Rail) (o : Outstanding) (outcome : Option (EventCode × Nat × Detail)) (s : State) :
    OthersKept l s (setUp l r o outcome s) := by
  have hset : OthersKept l s (s.setOutstanding l r (some o)) := othersKept_modSession s l _
  unfold setUp
  dsimp only
  split
  · exact hset.trans (othersKept_resolve ..)
  · exact hset

theorem othersKept_railTurn (reserve : Option Link) (lead log : List Announcement) (s : State) :
    OthersKept l s (railTurn reserve lead ⟨s, log⟩) := .of_reaction (reaction_railTurn reserve lead ⟨s, log⟩)

theorem othersKept_rewriteClaim (reserve : Option Link) (l m : Link) (r : Rail) (v : Nat) (s : State) :
    OthersKept l s (rewriteClaim reserve m r v s) :=
  .trans (.of_eq (t := s.setClaim m r v) rfl rfl) (othersKept_railTurn reserve [] [] (s.setClaim m r v))

theorem othersKept_teardown (l : Link) (st : SessionState) (s : State) : OthersKept l s (teardown l st s) := by
  have hwithout : OthersKept l s (s.without l st) := ⟨fun m hm => by
    have hsession : (s.without l st).session m = s.session m := (get_set ..).trans (if_neg hm)
    rw [hsession]
    exact ⟨rfl, rfl⟩⟩
  exact hwithout.trans (.of_reaction (reaction_teardown l st s))

theorem othersKept_claimAnswer (l : Link) (f : Frame) (s : State) : OthersKept l s (claimAnswer l f s).st := by
  unfold claimAnswer
  split
  · exact .refl l s
  · dsimp only
    split
    · exact .refl l s
    · split
      · exact .refl l s
      · dsimp only
        unfold claimTaken
        dsimp only
        exact ((othersKept_resolve ..).trans (othersKept_rewriteClaim ..)).trans (othersKept_setUp ..)

theorem othersKept_releaseAnswer (l : Link) (f : Frame) (s : State) : OthersKept l s (releaseAnswer l f s).st := by
  unfold releaseAnswer
  split
  · exact .refl l s
  · split
    · dsimp only
      unfold releaseNow
      dsimp only
      split
      · exact (othersKept_resolve ..).trans (othersKept_rewriteClaim ..)
      · exact othersKept_rewriteClaim ..
    · split
      · split
        · exact .refl l s
        · dsimp only
          unfold releaseWaiting
          dsimp only
          exact ((othersKept_resolve ..).trans (othersKept_rewriteClaim ..)).trans (othersKept_setUp ..)
      · exact .refl l s

theorem othersKept_clearFaultAnswer (l : Link) (f : Frame) (s : State) : OthersKept l s (clearFaultAnswer l f s).st := by
  unfold clearFaultAnswer
  split
  · exact .refl l s
  · next r _ =>
    have hcleared : OthersKept l s (s.moveRail r fun y =>
        { y with faultLatch := false, level := 0, state := if y.target = 0 then .off else .waiting }) :=
      .of_eq (onlyRails_moveRail s r _).links (onlyRails_moveRail s r _).sessions
    dsimp only
    split
    · exact .refl l s
    · split
      · exact .refl l s
      · split
        · exact .refl l s
        · dsimp only
          unfold clearFaultTaken
          dsimp only
          exact hcleared.trans (othersKept_railTurn none [] _ _)

theorem othersKept_fetchAnswer (l : Link) (s : State) : OthersKept l s (fetchAnswer l s).st := by
  unfold fetchAnswer
  dsimp only
  split
  · dsimp only
    exact othersKept_modSession s l _
  · dsimp only
    exact othersKept_modSession s l _

theorem othersKept_attachAnswer (l : Link) (f : Frame) (s : State) : OthersKept l s (attachAnswer l f s).st := by
  unfold attachAnswer
  dsimp only
  split
  · exact .refl l s
  · dsimp only
    exact othersKept_modSession s l _

theorem othersKept_detachAnswer (l : Link) (s : State) : OthersKept l s (detachAnswer l s).st := by
  unfold detachAnswer
  split
  · dsimp only
    exact othersKept_teardown l .detached s
  · dsimp only
    exact othersKept_modSession s l _

theorem othersKept_queryRailAnswer (l : Link) (f : Frame) (s : State) : OthersKept l s (queryRailAnswer l f s).st := by
  unfold queryRailAnswer
  split <;> exact .refl l s

theorem othersKept_readRailAnswer (l : Link) (f : Frame) (s : State) : OthersKept l s (readRailAnswer f s).st := by
  unfold readRailAnswer
  split <;> exact .refl l s

theorem othersKept_writeRailAnswer (l : Link) (f : Frame) (s : State) : OthersKept l s (writeRailAnswer f s).st := by
  unfold writeRailAnswer
  split
  · split
    · exact .of_eq rfl rfl
    · exact .refl l s
  · exact .refl l s

theorem othersKept_commitAnswer (l : Link) (v : Nat) (s : State) : OthersKept l s (commitAnswer v s).st := by
  have hrest := committed_rest v s
  have hcommitted : OthersKept l s (evaluateSupply v s.activated) := .of_eq (by rw [hrest]) (by rw [hrest])
  unfold commitAnswer
  split
  · exact .refl l s
  · dsimp only
    rw [commitTaken_eq]
    generalize evaluateSupply v s.activated = m at hcommitted ⊢
    split
    · exact hcommitted
    · exact hcommitted.trans (.of_heard (heard_deliver none _ m))

theorem othersKept_serve {k : Kind} {f : Frame} {body : State → Answer} (h : ∀ t, OthersKept l t (body t).st) :
    OthersKept l s (s.serve k l f body) := by
  have hlease := othersKept_renewLease s l
  unfold State.serve
  split
  · split
    · exact othersKept_respond ..
    · split
      · exact othersKept_respond ..
      · dsimp only
        split
        · exact hlease.trans (othersKept_respond ..)
        · exact (hlease.trans (h _)).trans (othersKept_respond ..)
  · exact .refl l s

/-- Every request keeps to its own link and session. -/
theorem othersKept_of_request {c : Instr} {k : Kind} {f : Frame} (hc : c.request? = some (k, l, f))
    (h : exec c s = .next t) : OthersKept l s t := by
  cases c with
  | attach => cases hc; cases h; exact othersKept_serve (othersKept_attachAnswer l f)
  | detach => cases hc; cases h; exact othersKept_serve (othersKept_detachAnswer l)
  | renew => cases hc; cases h; exact othersKept_serve fun t => .refl l t
  | claim => cases hc; cases h; exact othersKept_serve (othersKept_claimAnswer l f)
  | releaseWithoutWait => cases hc; cases h; exact othersKept_serve (othersKept_releaseAnswer l f)
  | releaseWithWait => cases hc; cases h; exact othersKept_serve (othersKept_releaseAnswer l f)
  | clearFault => cases hc; cases h; exact othersKept_serve (othersKept_clearFaultAnswer l f)
  | fetchEvent => cases hc; cases h; exact othersKept_serve (othersKept_fetchAnswer l)
  | queryRail => cases hc; cases h; exact othersKept_serve (othersKept_queryRailAnswer l f)
  | queryPart => cases hc; cases h; exact othersKept_serve fun t => .refl l t
  | writeRail => cases hc; cases h; exact othersKept_serve (othersKept_writeRailAnswer l f)
  | writePart => cases hc; cases h; exact othersKept_serve fun t => .of_eq rfl rfl
  | readRail => cases hc; cases h; exact othersKept_serve (othersKept_readRailAnswer l f)
  | readPart => cases hc; cases h; exact othersKept_serve fun t => .refl l t
  | commit l' f' v =>
    cases hc
    cases h
    exact .trans (.of_eq (t := { s with sense := v }) rfl rfl) (othersKept_serve (othersKept_commitAnswer l v))
  | _ => cases hc

/-- A request of link `l` other than COMMIT writes no claim entry of another session. -/
theorem claim_kept_of_request {c : Instr} {k : Kind} {f : Frame} (hc : c.request? = some (k, l, f))
    (h : exec c s = .next t) {m : Link} (hm : m ≠ l) (hk : k ≠ .commit) (r : Rail) : t.claim m r = s.claim m r := by
  rcases claimsAreWrittenByTheirSession c s t m r h with hkept | ⟨f', hown, -⟩ | ⟨-, hcleared⟩
  · exact hkept
  · rcases hown with rfl | rfl | rfl
    · cases hc; exact absurd rfl hm
    · cases hc; exact absurd rfl hm
    · cases hc; exact absurd rfl hm
  · rcases hcleared with ⟨f', rfl⟩ | rfl | rfl | ⟨v, rfl⟩ | rfl | ⟨m', f', v, rfl⟩
    · cases hc; exact absurd rfl hm
    · cases hc
    · cases hc
    · cases hc
    · cases hc
    · cases hc; exact absurd rfl hk

/-- Settles O17. -/
theorem requestsLeaveOtherLinksAlone : Obligations.RequestsLeaveOtherLinksAlone := by
  intro c k l m f s t hc h hm
  obtain ⟨hlink, hsession⟩ := (othersKept_of_request hc h).other m hm
  exact ⟨hlink, hsession, fun hk r => claim_kept_of_request hc h hm hk r⟩

end Sys2Proof.Machine
end

/-! ### The CRC and the frames (R178, R180, R186, R188) -/

section
namespace Sys2Proof.Machine

/-- Adding a byte to the register before a shift is taking in its top bit, and the rest of the byte one place on. -/
theorem crcShift_xor (c b : Byte) : crcShift (c ^^^ b) = crcBit c b.msb ^^^ (b <<< 1) := by
  unfold crcShift crcBit
  rw [BitVec.msb_xor, BitVec.shiftLeft_xor_distrib]
  split
  · rw [BitVec.xor_assoc, BitVec.xor_assoc, BitVec.xor_comm (b <<< 1)]
  · rfl

/-- A byte is taken in bit by bit, most significant first. -/
theorem crcByte_eq_foldl (c b : Byte) : crcByte c b = (bitsOf b).foldl crcBit c := by
  have hmsb (i : Nat) (hi : i ≤ 7) : (b <<< i).msb = b.getLsbD (7 - i) := by
    rw [BitVec.msb_eq_getLsbD_last, BitVec.getLsbD_shiftLeft]
    simp [Nat.not_lt.mpr hi]
  have hshift (x : Byte) (i : Nat) (hi : i ≤ 7) :
      crcShift (x ^^^ (b <<< i)) = crcBit x (b.getLsbD (7 - i)) ^^^ (b <<< (i + 1)) := by
    rw [crcShift_xor, hmsb i hi, ← BitVec.shiftLeft_add]
  have hstart : c ^^^ b = c ^^^ (b <<< 0) := by rw [BitVec.shiftLeft_zero]
  have hend (x : Byte) : x ^^^ (b <<< 8) = x := by
    rw [BitVec.shiftLeft_eq_zero (Nat.le_refl 8), BitVec.xor_zero]
  unfold crcByte
  rw [hstart, hshift _ 0 (by decide), hshift _ 1 (by decide), hshift _ 2 (by decide), hshift _ 3 (by decide),
    hshift _ 4 (by decide), hshift _ 5 (by decide), hshift _ 6 (by decide), hshift _ 7 (by decide), hend]
  rfl

theorem crc8_eq_foldl (bs : List Byte) : crc8 bs = (bs.flatMap bitsOf).foldl crcBit 0xFF := by
  have hfold (c : Byte) : bs.foldl crcByte c = (bs.flatMap bitsOf).foldl crcBit c := by
    induction bs generalizing c with
    | nil => rfl
    | cons b bs ih => rw [List.foldl_cons, List.flatMap_cons, List.foldl_append, ih, crcByte_eq_foldl]
  exact hfold 0xFF

theorem buildFrame_length {k : Kind} {tag : Byte} {args : List Byte} (h : args.length < 256) :
    (buildFrame k tag args).length.toNat = args.length := Nat.mod_eq_of_lt h

theorem buildFrame_wf_iff {k : Kind} {tag : Byte} {args : List Byte} (h : args.length < 256) :
    (buildFrame k tag args).wf = true ↔ args.length ≤ 32 := by
  unfold Frame.wf
  rw [buildFrame_length h, beq_iff_eq]
  change args.length = (if args.length ≤ 32 then _ else _) ↔ _
  split <;> omega

theorem frameRefusal_buildFrame {k : Kind} {tag : Byte} {args : List Byte} (h : args.length ≤ 32) :
    frameRefusal k (buildFrame k tag args) = none ↔ k.allowsLength args.length = true := by
  have hlength : (buildFrame k tag args).length.toNat = args.length := buildFrame_length (by omega)
  have hgood : ¬ (32 < (buildFrame k tag args).length.toNat ∨ (buildFrame k tag args).crc ≠
      crc8 (kindByteOf k (buildFrame k tag args).kind :: (buildFrame k tag args).tag :: (buildFrame k tag args).length
        :: (buildFrame k tag args).args)) := by
    rw [hlength]
    exact not_or.mpr ⟨Nat.not_lt.mpr h, not_not_intro rfl⟩
  rw [frameRefusal_of_own hgood rfl, hlength]
  split
  · next hok => exact ⟨fun _ => hok.1, fun _ => rfl⟩
  · next hbad => exact ⟨nofun, fun hk => absurd ⟨hk, rfl⟩ hbad⟩

/-- Settles O58. -/
theorem crcGuardsTheFrames : Obligations.CrcGuardsTheFrames := by
  refine ⟨⟨crc8_eq_foldl, fun k f h => frameRefusal_of_bad h.symm, fun st tag data => rfl, fun c k l f s hc h => ?_⟩,
    fun k tag args h => ⟨buildFrame_wf_iff h, frameRefusal_buildFrame⟩⟩
  obtain ⟨body, v, hexec⟩ := exec_request s hc
  have hignored : State.serve { s with sense := v } k l f body = { s with sense := v } := State.serve_ignored h
  rw [hignored] at hexec
  exact ⟨_, hexec, rfl⟩

end Sys2Proof.Machine
end

/-! ### The checks of COMMIT before the cycle check (R168, R169) -/

section
namespace Sys2Proof.Machine

theorem levelsOk_iff (r : Rail) (x : RailRecord) :
    levelsOk r x = true ↔
      1 ≤ x.levelCount.toNat ∧ x.levelCount.toNat ≤ 8 ∧ (8 ≤ r.val → x.levelCount.toNat = 1) := decide_eq_true_iff

theorem nonDecreasing_iff (cs : List (BitVec 16)) :
    nonDecreasing cs = true ↔
      ∀ (i : Nat) (c d : BitVec 16), cs[i]? = some c → cs[i + 1]? = some d → c.toNat ≤ d.toNat := by
  induction cs with
  | nil => exact ⟨fun _ i c d h => by simp at h, fun _ => rfl⟩
  | cons a rest ih =>
    cases rest with
    | nil => exact ⟨fun _ i c d _ h => by simp at h, fun _ => rfl⟩
    | cons b rest =>
      have hcons : nonDecreasing (a :: b :: rest) = true ↔ a.toNat ≤ b.toNat ∧ nonDecreasing (b :: rest) = true := by
        rw [nonDecreasing, Bool.and_eq_true, decide_eq_true_iff]
        rfl
      rw [hcons, ih]
      constructor
      · rintro ⟨hab, hrest⟩ i c d hc hd
        cases i with
        | zero =>
          cases hc
          cases hd
          exact hab
        | succ i => exact hrest i c d hc hd
      · exact fun h => ⟨h 0 a b rfl rfl, fun i c d hc hd => h (i + 1) c d hc hd⟩

theorem costsOk_iff (p : PartRecord) (x : RailRecord) :
    costsOk p x = true ↔
      (∀ c ∈ x.costs, c.toNat ≤ 1023)
        ∧ (∀ (i : Nat) (c d : BitVec 16), x.costs[i]? = some c → x.costs[i + 1]? = some d → c.toNat ≤ d.toNat)
        ∧ ∀ c ∈ x.costs.getLast?, c.toNat ≤ p.budgetFull.toNat := by
  have hlast : ((x.costs.getLast?).getD 0).toNat ≤ p.budgetFull.toNat ↔
      ∀ c ∈ x.costs.getLast?, c.toNat ≤ p.budgetFull.toNat := by
    cases x.costs.getLast? with
    | none => exact ⟨fun _ => nofun, fun _ => Nat.zero_le _⟩
    | some c => exact ⟨fun h d hd => by cases hd; exact h, fun h => h c rfl⟩
  rw [costsOk, Bool.and_eq_true, Bool.and_eq_true, List.all_eq_true, nonDecreasing_iff, decide_eq_true_iff, hlast,
    and_assoc]
  simp only [decide_eq_true_iff]

theorem distinct_iff (bs : List Byte) : distinct bs = true ↔ bs.Nodup := by
  induction bs with
  | nil => exact ⟨fun _ => List.nodup_nil, fun _ => rfl⟩
  | cons b rest ih => simp [distinct, ih]

theorem parentsOk_iff (s : State) (r : Rail) (x : RailRecord) :
    parentsOk s r x = true ↔
      x.parents.length ≤ 4
        ∧ (∀ b ∈ x.parents, ∃ p : Rail, b.toNat = p.val ∧ (s.record p).defined = true ∧ p ≠ r)
        ∧ x.parents.Nodup := by
  have hnamed (b : Byte) : (s.namedRail b).any (fun p => p != r) = true ↔
      ∃ p : Rail, b.toNat = p.val ∧ (s.record p).defined = true ∧ p ≠ r := by
    rw [Option.any_eq_true]
    simp only [State.namedRail_eq_some_iff, bne_iff_ne, and_assoc]
  rw [parentsOk, Bool.and_eq_true, Bool.and_eq_true, decide_eq_true_iff, List.all_eq_true, distinct_iff, and_assoc]
  simp only [hnamed]

theorem timesOk_iff (x : RailRecord) :
    timesOk x = true ↔
      1 ≤ x.rampTime.toNat ∧ 1 ≤ x.drainTime.toNat
        ∧ (1 < x.levelCount.toNat → 1 ≤ x.slewTime.toNat ∧ x.slewTime.toNat ≤ 63) := decide_eq_true_iff

theorem railFaultAt_eq_none_iff (s : State) (r : Rail) :
    railFaultAt s r = none ↔
      ((s.record r).defined = true →
        levelsOk r (s.record r) = true ∧ costsOk s.part (s.record r) = true ∧ parentsOk s r (s.record r) = true
          ∧ timesOk (s.record r) = true) := by
  unfold railFaultAt
  dsimp only
  split
  · next h => exact ⟨fun _ hd => absurd (h.symm.trans hd) nofun, fun _ => rfl⟩
  · next h =>
    have hd : (s.record r).defined = true := Bool.of_not_eq_false h
    split
    · next h1 => simp [hd, h1]
    · next h1 =>
      split
      · next h2 => simp [hd, h1, h2]
      · next h2 =>
        split
        · next h3 => simp [hd, h1, h2, h3]
        · next h3 =>
          split
          · next h4 => simp [hd, h1, h2, h3, h4]
          · next h4 => simp [hd, h1, h2, h3, h4]

theorem findSome?_allRails {β : Type} {g : Rail → Option β} {r : Rail} {b : β} (hr : g r = some b)
    (hlow : ∀ x : Rail, x < r → g x = none) : allRails.findSome? g = some b := by
  have hlist : ∀ rs : List Rail, rs.Pairwise (· < ·) → r ∈ rs → rs.findSome? g = some b := by
    intro rs
    induction rs with
    | nil => exact fun _ h => nomatch h
    | cons a rs ih =>
      intro hsorted hmem
      obtain ⟨hfirst, hsorted⟩ := List.pairwise_cons.mp hsorted
      rcases List.mem_cons.mp hmem with rfl | hmem
      · rw [List.findSome?_cons, hr]
      · rw [List.findSome?_cons, hlow a (hfirst r hmem), ih hsorted hmem]
  exact hlist allRails (by decide) (mem_allRails r)

section
variable {s : State}

theorem commitFault_of_partFault {reason : CommitReason} (h : partFault s.part = some reason) :
    commitFault s = some (reason, absentByte) := by
  unfold commitFault
  rw [h]

theorem commitFault_of_noRails (hpart : partFault s.part = none) (h : ∀ r : Rail, (s.record r).defined = false) :
    commitFault s = some (.noRails, absentByte) := by
  unfold commitFault
  rw [hpart]
  exact if_pos (List.all_eq_true.mpr fun r _ => by rw [h r]; rfl)

/-- Past the part checks and with some rail defined, by the first rail that fails a check of its own. -/
theorem commitFault_of_defined (hpart : partFault s.part = none) {r : Rail} (hr : (s.record r).defined = true) :
    commitFault s =
      match allRails.findSome? fun r => (railFaultAt s r).map fun reason => (reason, oneByte r.val) with
      | some failure => some failure
      | none => (allRails.find? s.onCycle).map fun r => (.cycle, oneByte r.val) := by
  have hsome : ¬ (allRails.all (fun r => !(s.record r).defined) = true) := fun hall => by
    have := List.all_eq_true.mp hall r (mem_allRails r)
    rw [hr] at this
    cases this
  unfold commitFault
  rw [hpart]
  exact if_neg hsome

theorem commitFault_of_railFault (hpart : partFault s.part = none) {r : Rail} (hr : (s.record r).defined = true)
    {reason : CommitReason} (hfault : railFaultAt s r = some reason) (hlow : ∀ x : Rail, x < r → railFaultAt s x = none) :
    commitFault s = some (reason, oneByte r.val) := by
  have hfind : allRails.findSome? (fun r => (railFaultAt s r).map fun reason => (reason, oneByte r.val)) =
      some (reason, oneByte r.val) :=
    findSome?_allRails (by rw [hfault]; rfl) fun x hx => by rw [hlow x hx]; rfl
  rw [commitFault_of_defined hpart hr, hfind]

theorem commitFault_of_good (hpart : partFault s.part = none) {r : Rail} (hr : (s.record r).defined = true)
    (h : ∀ x : Rail, railFaultAt s x = none) :
    commitFault s = (allRails.find? s.onCycle).map fun r => (.cycle, oneByte r.val) := by
  have hfind : allRails.findSome? (fun r => (railFaultAt s r).map fun reason => (reason, oneByte r.val)) = none :=
    List.findSome?_eq_none_iff.mpr fun x _ => by rw [h x]; rfl
  rw [commitFault_of_defined hpart hr, hfind]

end

section
variable {p : PartRecord}

theorem partFault_noBudget (h : p.budgetFull.toNat = 0) : partFault p = some .noBudget :=
  if_pos (BitVec.eq_of_toNat_eq h)

theorem partFault_badLowBudget (h1 : 1 ≤ p.budgetFull.toNat) (h2 : p.budgetFull.toNat < p.budgetLow.toNat) :
    partFault p = some .badLowBudget :=
  (if_neg fun h => by rw [h] at h1; cases h1).trans (if_pos h2)

theorem partFault_badThresholds (h1 : 1 ≤ p.budgetFull.toNat) (h2 : p.budgetLow.toNat ≤ p.budgetFull.toNat)
    (h3 : p.warnCode.toNat ≤ p.critCode.toNat) : partFault p = some .badThresholds :=
  (if_neg fun h => by rw [h] at h1; cases h1).trans ((if_neg (Nat.not_lt.mpr h2)).trans (if_pos h3))

/-- The part checks that are left where the budgets and the thresholds are good. -/
theorem partFault_of_thresholds (h1 : 1 ≤ p.budgetFull.toNat) (h2 : p.budgetLow.toNat ≤ p.budgetFull.toNat)
    (h3 : p.critCode.toNat < p.warnCode.toNat) : partFault p = if p.holdoffCode = 0 then some .badHoldoff else none :=
  (if_neg fun h => by rw [h] at h1; cases h1).trans ((if_neg (Nat.not_lt.mpr h2)).trans (if_neg (Nat.not_le.mpr h3)))

theorem partFault_badHoldoff (h1 : 1 ≤ p.budgetFull.toNat) (h2 : p.budgetLow.toNat ≤ p.budgetFull.toNat)
    (h3 : p.critCode.toNat < p.warnCode.toNat) (h4 : p.holdoffCode.toNat = 0) : partFault p = some .badHoldoff :=
  (partFault_of_thresholds h1 h2 h3).trans (if_pos (BitVec.eq_of_toNat_eq h4))

theorem partFault_eq_none_iff :
    partFault p = none ↔
      1 ≤ p.budgetFull.toNat ∧ p.budgetLow.toNat ≤ p.budgetFull.toNat ∧ p.critCode.toNat < p.warnCode.toNat
        ∧ 1 ≤ p.holdoffCode.toNat := by
  constructor
  · intro h
    have h1 : 1 ≤ p.budgetFull.toNat := Nat.one_le_iff_ne_zero.mpr fun h0 => by
      rw [partFault_noBudget h0] at h
      cases h
    have h2 : p.budgetLow.toNat ≤ p.budgetFull.toNat := Nat.le_of_not_lt fun hlt => by
      rw [partFault_badLowBudget h1 hlt] at h
      cases h
    have h3 : p.critCode.toNat < p.warnCode.toNat := Nat.lt_of_not_le fun hle => by
      rw [partFault_badThresholds h1 h2 hle] at h
      cases h
    refine ⟨h1, h2, h3, Nat.one_le_iff_ne_zero.mpr fun h0 => ?_⟩
    rw [partFault_badHoldoff h1 h2 h3 h0] at h
    cases h
  · rintro ⟨h1, h2, h3, h4⟩
    refine (partFault_of_thresholds h1 h2 h3).trans (if_neg fun h => ?_)
    rw [h] at h4
    cases h4

end

/-- The check of its own that a defined rail fails first (R169). -/
theorem railFaultAt_of_defined {s : State} {r : Rail} (hr : (s.record r).defined = true) :
    railFaultAt s r =
      if levelsOk r (s.record r) = false then some .badLevels
      else if costsOk s.part (s.record r) = false then some .badCosts
      else if parentsOk s r (s.record r) = false then some .badParent
      else if timesOk (s.record r) = false then some .badTimes
      else none := if_neg (by rw [hr]; decide)

/-- Settles O60: the part checks, then the first rail that fails a check of its own, each check by what it says. -/
theorem commitChecksComeInOrder : Obligations.CommitChecksComeInOrder := by
  intro s full low warn crit holdoff levels costs parents times good
  have hgood (r : Rail) : railFaultAt s r = none ↔ good r := by
    rw [railFaultAt_eq_none_iff, levelsOk_iff, costsOk_iff, parentsOk_iff, timesOk_iff]
  refine ⟨fun h => commitFault_of_partFault (partFault_noBudget h),
    fun h1 h2 => commitFault_of_partFault (partFault_badLowBudget h1 h2),
    fun h1 h2 h3 => commitFault_of_partFault (partFault_badThresholds h1 h2 h3),
    fun h1 h2 h3 h4 => commitFault_of_partFault (partFault_badHoldoff h1 h2 h3 h4), fun h1 h2 h3 h4 => ?_,
    partFault_eq_none_iff, hgood⟩
  have hpart : partFault s.part = none := partFault_eq_none_iff.mpr ⟨h1, h2, h3, h4⟩
  refine ⟨commitFault_of_noRails hpart, fun r hr hlow => ?_, fun ⟨r, hr⟩ hall => ?_⟩
  · have fails {reason : CommitReason} (h : railFaultAt s r = some reason) :
        commitFault s = some (reason, BitVec.ofNat 8 r.val) :=
      commitFault_of_railFault hpart hr h fun x hx => (hgood x).mpr (hlow x hx)
    have hlevels : levelsOk r (s.record r) = true ↔ levels r := levelsOk_iff r _
    have hcosts : costsOk s.part (s.record r) = true ↔ costs r := costsOk_iff s.part _
    have hparents : parentsOk s r (s.record r) = true ↔ parents r := parentsOk_iff s r _
    have htimes : timesOk (s.record r) = true ↔ times r := timesOk_iff _
    have hfault := railFaultAt_of_defined hr
    rw [← hlevels, ← hcosts, ← hparents, ← htimes]
    simp only [Bool.not_eq_true]
    refine ⟨fun hl => fails ?_, fun hl hc => fails ?_, fun hl hc hp => fails ?_, fun hl hc hp ht => fails ?_⟩
    · rw [hfault, hl, if_pos rfl]
    · rw [hfault, hl, hc]
      rfl
    · rw [hfault, hl, hc, hp]
      rfl
    · rw [hfault, hl, hc, hp, ht]
      rfl
  · rw [commitFault_of_good hpart hr fun x => (hgood x).mpr (hall x)]
    cases allRails.find? s.onCycle with
    | none => exact .inl rfl
    | some r => exact .inr ⟨r, rfl⟩

end Sys2Proof.Machine
end

/-! ### What one session makes of the announcements (R145 to R157) -/

section
namespace Sys2Proof.Machine

/-- The session with its completion on rail `r`, if any, resolved (R145, R147). -/
def Session.resolved (x : Session) (r : Rail) (code : EventCode) (level : Nat) (d : Detail) (now : BitVec 16) : Session :=
  match x.table.get r with
  | some o =>
    { x with
      table := x.table.set r.val none r.isLt
      queue := x.queue ++ [⟨code, some r, some o.tag, level, d, now⟩]
      alertn := .low }
  | none => x

/-- The session offered a notice, with `reserved` slots counted in (R150, R62). -/
def Session.offered (x : Session) (reserved : Nat) (e : EventRecord) : Session :=
  if x.roomUsed + reserved < Config.sessionRoom then { x with queue := x.queue ++ [e], alertn := .low }
  else { x with lost := min (x.lost + 1) Config.lostMax }

/-- What an announcement resolves of a session's completions: the rail, and what it resolves with (R156). -/
def State.resolutionFor (s : State) (x : Session) (a : Announcement) : Option (Rail × EventCode × Nat × Detail) :=
  a.rail?.bind fun r => (x.table.get r).bind fun o => (resolution a o.kind (s.rail r).level).map fun d => (r, d)

/-- The notice of an announcement for session `l` under a mask, where there is one for it (R100, R102, R109, R122, R125). -/
def State.noticeFrom (s : State) (l : Link) (mask : NoticeMask) : Announcement → Option EventRecord
  | .enteredFault r k =>
    if mask.railFault && s.claimant l r then some ⟨.railFault, some r, none, 0, .fault (some k), s.timestamp⟩ else none
  | .forcedOff r k =>
    if mask.forcedOff && s.claimant l r then
      some ⟨.forcedOff, some r, none, (s.rail r).level, .fault (some k), s.timestamp⟩
    else none
  | .suspended r =>
    if mask.suspendResume && s.claimant l r then
      some ⟨.suspended, some r, none, (s.rail r).level, .supply s.supply.state, s.timestamp⟩
    else none
  | .resumed r =>
    if mask.suspendResume && s.claimant l r then
      some ⟨.resumed, some r, none, (s.rail r).level, .supply s.supply.state, s.timestamp⟩
    else none
  | .faultCleared r k caller =>
    if (mask.faultCleared && l != caller) && s.claimant l r then
      some ⟨.faultCleared, some r, none, 0, .fault k, s.timestamp⟩
    else none
  | .supplyChanged st =>
    if mask.supplyChange then some ⟨.supplyChange, none, none, 0, .supply st, s.timestamp⟩ else none
  | .enteredOn _ _ => none
  | .enteredOff _ => none
  | .targetRose _ => none

/-- The slots held in reserve for session `l` (R62). -/
def reservedFor (reserve : Option Link) (l : Link) : Nat := if reserve = some l then 1 else 0

/-- The session with what an announcement resolves of it resolved. -/
def Session.settledBy (s : State) (x : Session) (a : Announcement) : Session :=
  match s.resolutionFor x a with
  | some (r, code, level, d) => x.resolved r code level d s.timestamp
  | none => x

/-- The session with an announcement taken, its completion first, then its notice (R156). -/
def Session.takes (s : State) (reserve : Option Link) (l : Link) (x : Session) (a : Announcement) : Session :=
  if x.state = .attached then
    match s.noticeFrom l x.mask a with
    | some e => (x.settledBy s a).offered (reservedFor reserve l) e
    | none => x.settledBy s a
  else x

section
variable (s : State)

theorem State.session_resolve (l m : Link) (r : Rail) (code : EventCode) (level : Nat) (d : Detail) :
    (s.resolve l r code level d).session m =
      if m = l then (s.session l).resolved r code level d s.timestamp else s.session m := by
  unfold Session.resolved
  rcases s.resolve_cases l r code level d with ⟨hnone, he⟩ | ⟨o, hsome, he⟩
  · rw [he]
    unfold State.outstanding at hnone
    rw [hnone]
    split
    · next h => rw [h]
    · rfl
  · unfold State.outstanding at hsome
    rw [he, hsome, State.session_placeRecord]
    have hset (n : Link) : (s.setOutstanding l r none).session n =
        if n = l then { s.session l with table := (s.session l).table.set r.val none r.isLt } else s.session n := get_set ..
    split
    · rw [hset, if_pos rfl]
      rfl
    · next h => rw [hset, if_neg h]

theorem State.session_offerNotice (l m : Link) (n : Nat) (code : EventCode) (rail : Option Rail) (level : Nat) (d : Detail) :
    (s.offerNotice l n code rail level d).session m =
      if m = l then (s.session l).offered n ⟨code, rail, none, level, d, s.timestamp⟩ else s.session m := by
  have h := noticesAreAdmittedOrCounted s l n code rail level d
  rw [h]
  exact get_set ..

theorem session_resolveFor (a : Announcement) (l m : Link) :
    (resolveFor a l s).session m = if m = l then (s.session l).settledBy s a else s.session m := by
  have same {t : State} (ht : t = s) {x : Session} (hx : x = s.session l) : t.session m = if m = l then x else s.session m := by
    rw [ht, hx]
    split
    · next h => rw [h]
    · rfl
  unfold resolveFor Session.settledBy State.resolutionFor
  cases a.rail? with
  | none => exact same rfl rfl
  | some r =>
    dsimp only [Option.bind_some]
    unfold State.outstanding
    cases (s.session l).table.get r with
    | none => exact same rfl rfl
    | some o =>
      dsimp only [Option.bind_some]
      cases resolution a o.kind (s.rail r).level with
      | none => exact same rfl rfl
      | some d =>
        obtain ⟨code, level, detail⟩ := d
        exact s.session_resolve l m r code level detail

theorem session_offerMasked (l m : Link) (reserve : Option Link) (named : Bool) (code : EventCode) (rail : Option Rail)
    (level : Nat) (d : Detail) :
    (offerMasked l reserve named code rail level d s).session m =
      if m = l then
        (match if named then some (⟨code, rail, none, level, d, s.timestamp⟩ : EventRecord) else none with
        | some e => (s.session l).offered (reservedFor reserve l) e
        | none => s.session l)
      else s.session m := by
  unfold offerMasked
  cases named with
  | true =>
    rw [if_pos rfl, if_pos rfl]
    exact s.session_offerNotice ..
  | false =>
    change s.session m = if m = l then s.session l else s.session m
    split
    · next h => rw [h]
    · rfl

theorem session_noticeFor (reserve : Option Link) (a : Announcement) (l m : Link) :
    (noticeFor reserve a l s).session m =
      if m = l then
        (match s.noticeFrom l (s.session l).mask a with
        | some e => (s.session l).offered (reservedFor reserve l) e
        | none => s.session l)
      else s.session m := by
  have quiet : s.session m = if m = l then s.session l else s.session m := by
    split
    · next h => rw [h]
    · rfl
  cases a with
  | enteredOn r level => exact quiet
  | enteredOff r => exact quiet
  | targetRose r => exact quiet
  | enteredFault r k => exact session_offerMasked ..
  | forcedOff r k => exact session_offerMasked ..
  | suspended r => exact session_offerMasked ..
  | resumed r => exact session_offerMasked ..
  | faultCleared r k caller => exact session_offerMasked ..
  | supplyChanged st => exact session_offerMasked ..

theorem noticeFrom_withSessions (x : Vector Session 4) (l : Link) (mask : NoticeMask) (a : Announcement) :
    State.noticeFrom { s with sessions := x } l mask a = s.noticeFrom l mask a := by
  cases a <;> rfl

theorem takes_withSessions (y : Vector Session 4) (reserve : Option Link) (l : Link) (x : Session) (a : Announcement) :
    Session.takes { s with sessions := y } reserve l x a = Session.takes s reserve l x a := by
  unfold Session.takes
  rw [noticeFrom_withSessions]
  rfl

theorem settledBy_kept (x : Session) (a : Announcement) :
    (x.settledBy s a).state = x.state ∧ (x.settledBy s a).mask = x.mask := by
  unfold Session.settledBy
  split
  · unfold Session.resolved
    split
    · exact ⟨rfl, rfl⟩
    · exact ⟨rfl, rfl⟩
  · exact ⟨rfl, rfl⟩

theorem beside_resolveFor (a : Announcement) (l : Link) :
    resolveFor a l s = { s with sessions := (resolveFor a l s).sessions } := by
  unfold resolveFor
  split
  · rfl
  · split
    · rfl
    · split
      · rcases State.resolve_cases s _ _ _ _ _ with ⟨-, he⟩ | ⟨o, -, he⟩
        · rw [he]
        · rw [he]
          rfl
      · rfl

theorem session_hear (reserve : Option Link) (a : Announcement) (l m : Link) :
    (hear reserve a s l).session m = if m = l then Session.takes s reserve l (s.session l) a else s.session m := by
  unfold hear Session.takes
  by_cases ha : (s.session l).state = .attached
  · rw [if_pos ha, if_pos ha, session_noticeFor, session_resolveFor, session_resolveFor, if_pos rfl,
      (settledBy_kept s (s.session l) a).2, beside_resolveFor, noticeFrom_withSessions]
    by_cases hm : m = l
    · rw [if_pos hm, if_pos hm]
    · rw [if_neg hm, if_neg hm, if_neg hm]
  · rw [if_neg ha, if_neg ha]
    split
    · next h => rw [h]
    · rfl

theorem session_foldl_hear (reserve : Option Link) (a : Announcement) {ls : List Link} (hn : ls.Nodup) (m : Link) :
    (ls.foldl (hear reserve a) s).session m =
      if m ∈ ls then Session.takes s reserve m (s.session m) a else s.session m := by
  induction ls generalizing s with
  | nil => rfl
  | cons l ls ih =>
    obtain ⟨hl, hn⟩ := List.nodup_cons.mp hn
    rw [List.foldl_cons, ih _ hn, session_hear, (heard_hear reserve a s l).rest, takes_withSessions]
    by_cases hm : m = l
    · subst hm
      rw [if_neg hl, if_pos rfl, if_pos List.mem_cons_self]
    · rw [if_neg hm]
      by_cases hmem : m ∈ ls
      · rw [if_pos hmem, if_pos (List.mem_cons_of_mem l hmem)]
      · rw [if_neg hmem, if_neg fun h => hmem ((List.mem_cons.mp h).resolve_left hm)]

/-- What each session makes of the announcements of an event, taken in their order. -/
theorem session_deliver (reserve : Option Link) (log : List Announcement) (l : Link) :
    (deliver reserve log s).session l = log.foldl (Session.takes s reserve l) (s.session l) := by
  unfold deliver
  induction log generalizing s with
  | nil => rfl
  | cons a log ih =>
    have hheard : Heard s (allLinks.foldl (hear reserve a) s) := .foldl (heard_hear reserve a) allLinks s
    have hfirst : (allLinks.foldl (hear reserve a) s).session l = Session.takes s reserve l (s.session l) a := by
      rw [session_foldl_hear s reserve a nodup_allLinks, if_pos (mem_allLinks l)]
    rw [List.foldl_cons, List.foldl_cons]
    generalize allLinks.foldl (hear reserve a) s = t at hheard hfirst
    have htakes : Session.takes t reserve l = Session.takes s reserve l := by
      funext x b
      rw [hheard.rest]
      exact takes_withSessions ..
    rw [ih, hfirst, htakes]

end

end Sys2Proof.Machine
end

/-! ### CLAIM and RELEASE that are accepted (R62, R63, R66, R67) -/

section
namespace Sys2Proof.Machine

/-- A reaction takes no notice of what one session holds, where that session is left out on both sides. -/
theorem Reaction.withSession {s t : State} (h : Reaction s t) (l : Link) (y : Session) :
    Reaction { s with sessions := s.sessions.set l.val y l.isLt } { t with sessions := t.sessions.set l.val y l.isLt } := by
  have hs (m : Link) : State.session { s with sessions := s.sessions.set l.val y l.isLt } m =
      if m = l then y else s.session m := get_set ..
  have ht (m : Link) : State.session { t with sessions := t.sessions.set l.val y l.isLt } m =
      if m = l then y else t.session m := get_set ..
  refine ⟨by rw [h.rest], h.claims, h.suspended, h.pg, h.faulted, h.fault, h.cause, fun m => ?_, fun m hm => ?_, fun m => ?_,
    fun m r => ?_⟩
  · rw [hs, ht]
    split
    · rfl
    · exact h.session m
  · rw [hs] at hm ⊢
    rw [ht]
    split
    · rfl
    · next hml =>
      rw [if_neg hml] at hm
      exact h.unattached m hm
  · rw [hs, ht]
    split
    · exact List.prefix_refl _
    · exact h.grows m
  · unfold State.outstanding
    rw [hs, ht]
    split
    · exact .inr rfl
    · exact h.leaves m r

/-- The record that closes a completion on rail `r` (R147, R155). -/
def State.closing (s : State) (l : Link) (r : Rail) (code : EventCode) : List EventRecord :=
  match s.outstanding l r with
  | some o => [⟨code, some r, some o.tag, (s.rail r).level, .absent, s.timestamp⟩]
  | none => []

section
variable (l : Link) (r : Rail) (code : EventCode) (s : State)

theorem closeOutstanding_eq :
    closeOutstanding l r code s = { s with sessions := (closeOutstanding l r code s).sessions } := by
  unfold closeOutstanding
  rcases s.resolve_cases l r code (s.rail r).level .absent with ⟨-, he⟩ | ⟨o, -, he⟩
  · rw [he]
  · rw [he]
    rfl

/-- A session whose completion on the rail has been closed. -/
theorem session_closeOutstanding :
    (closeOutstanding l r code s).session l =
      { s.session l with
        table := ((closeOutstanding l r code s).session l).table
        queue := (s.session l).queue ++ s.closing l r code
        alertn := ((closeOutstanding l r code s).session l).alertn } := by
  have h := s.session_resolve l l r code (s.rail r).level .absent
  rw [if_pos rfl] at h
  unfold closeOutstanding State.closing
  rw [h]
  unfold Session.resolved State.outstanding
  cases (s.session l).table.get r with
  | none =>
    dsimp only
    rw [List.append_nil]
  | some o => rfl

theorem session_closeOutstanding_other {m : Link} (hm : m ≠ l) :
    (closeOutstanding l r code s).session m = s.session m :=
  (s.session_resolve l m r code (s.rail r).level .absent).trans (if_neg hm)

theorem outstanding_closeOutstanding (x : Rail) :
    (closeOutstanding l r code s).outstanding l x = if x = r then none else s.outstanding l x := by
  have h := s.session_resolve l l r code (s.rail r).level .absent
  rw [if_pos rfl] at h
  unfold closeOutstanding
  have hout : (s.resolve l r code (s.rail r).level .absent).outstanding l x =
      ((s.session l).resolved r code (s.rail r).level .absent s.timestamp).table.get x := by rw [State.outstanding, h]
  rw [hout]
  unfold Session.resolved State.outstanding
  cases ho : (s.session l).table.get r with
  | none =>
    dsimp only
    split
    · next hx => rw [hx, ho]
    · rfl
  | some o => exact get_set ..

end

/-- The record of a completion answered at once. -/
def answerRecord (r : Rail) (tag : Byte) (now : BitVec 16) : EventCode × Nat × Detail → EventRecord
  | (code, level, d) => ⟨code, some r, some tag, level, d, now⟩

section
variable (l : Link) (r : Rail) (o : Outstanding) (outcome : Option (EventCode × Nat × Detail)) (s : State)

theorem setUp_eq : setUp l r o outcome s = { s with sessions := (setUp l r o outcome s).sessions } := by
  unfold setUp
  dsimp only
  split
  · rcases (s.setOutstanding l r (some o)).resolve_cases l r _ _ _ with ⟨-, he⟩ | ⟨o', -, he⟩
    · rw [he]
      rfl
    · rw [he]
      rfl
  · rfl

theorem session_setUp_other {m : Link} (hm : m ≠ l) : (setUp l r o outcome s).session m = s.session m := by
  have hset : (s.setOutstanding l r (some o)).session m = s.session m := (State.session_modSession ..).trans (if_neg hm)
  unfold setUp
  dsimp only
  split
  · rw [State.session_resolve, if_neg hm, hset]
  · exact hset

/-- What setting up a completion makes of its session: the completion outstanding, or answered at once. -/
theorem session_setUp :
    (setUp l r o outcome s).session l =
      match outcome with
      | some d =>
        { s.session l with
          table := (s.session l).table.set r.val none r.isLt
          queue := (s.session l).queue ++ [answerRecord r o.tag s.timestamp d]
          alertn := .low }
      | none => { s.session l with table := (s.session l).table.set r.val (some o) r.isLt } := by
  have hset : (s.setOutstanding l r (some o)).session l =
      { s.session l with table := (s.session l).table.set r.val (some o) r.isLt } :=
    (State.session_modSession ..).trans (if_pos rfl)
  unfold setUp
  dsimp only
  cases outcome with
  | none => exact hset
  | some d =>
    obtain ⟨code, level, d⟩ := d
    dsimp only
    have hget : ((s.session l).table.set r.val (some o) r.isLt).get r = some o := (get_set ..).trans (if_pos rfl)
    have htwice : ((s.session l).table.set r.val (some o) r.isLt).set r.val none r.isLt =
        (s.session l).table.set r.val none r.isLt := Vector.set_set ..
    rw [State.session_resolve, if_pos rfl, hset]
    unfold Session.resolved
    dsimp only
    rw [hget, htwice]
    rfl

end

/-- A reaction beside session `l`, from one between states that differ from the ends in that session and in the links alone. -/
theorem reactionBeside_of {l : Link} {a b w t : State} (h : Reaction b w) (hb : b = { a with sessions := b.sessions })
    (hbother : ∀ m : Link, m ≠ l → b.session m = a.session m)
    (ht : t = { w with sessions := t.sessions, links := t.links })
    (htother : ∀ m : Link, m ≠ l → t.session m = w.session m) : ReactionBeside l a t := by
  have hset {x y : State} (hxy : ∀ m : Link, m ≠ l → x.session m = y.session m) (z : Session) :
      x.sessions.set l.val z l.isLt = y.sessions.set l.val z l.isLt := vector_eq_of_get fun m => by
    rw [get_set, get_set]
    split
    · rfl
    · next hm => exact hxy m hm
  have hself : a.sessions.set l.val (a.session l) l.isLt = a.sessions := vector_eq_of_get fun m => by
    rw [get_set]
    split
    · next hm => rw [hm]; rfl
    · rfl
  have hreaction := h.withSession l (a.session l)
  have hstart : ({ b with sessions := b.sessions.set l.val (a.session l) l.isLt } : State) = a := by
    rw [hset hbother, hself, hb]
  have hlinks : w.links = a.links := by rw [h.rest, hb]
  have hend : ({ w with sessions := w.sessions.set l.val (a.session l) l.isLt } : State) =
      { t with links := a.links, sessions := t.sessions.set l.val (a.session l) l.isLt } := by
    rw [hset htother, ht, ← hlinks]
  rw [hstart, hend] at hreaction
  exact hreaction

/-- Of a session no more is written than its completions, its queue, its lost-notice count and ALERTn. -/
def RecordsWritten (x y : Session) : Prop :=
  y = { x with table := y.table, queue := y.queue, lost := y.lost, alertn := y.alertn }

theorem RecordsWritten.trans {x y z : Session} (h : RecordsWritten x y) (h' : RecordsWritten y z) : RecordsWritten x z := by
  unfold RecordsWritten at *
  rw [h', h]

theorem recordsWritten_setUp (l : Link) (r : Rail) (o : Outstanding) (outcome : Option (EventCode × Nat × Detail))
    (s : State) : RecordsWritten (s.session l) ((setUp l r o outcome s).session l) := by
  unfold RecordsWritten
  rw [session_setUp]
  cases outcome <;> rfl

/-- The state in which a request of session `l` that passes the common checks is answered. -/
def State.leased (s : State) (l : Link) : State := { s with sessions := s.leaseRestarted l }

theorem session_leased (s : State) (l m : Link) :
    (s.leased l).session m =
      if m = l then { s.session l with leaseTimer := .running ((s.session l).leaseLength.toNat * 100) } else s.session m :=
  get_set ..

/-- What a claim entry's rewriting, after completions of its session were closed (`c`), makes of the other blocks (`w`), and a write
to its own session's records after it (`t`). -/
structure ClaimServed (l : Link) (r : Rail) (v : Nat) (s c w t : State) : Prop where
  closed : c = { s.leased l with sessions := c.sessions }
  closedOther : ∀ m : Link, m ≠ l → c.session m = s.session m
  closedOwn : RecordsWritten ((s.leased l).session l) (c.session l)
  reacts : Reaction (c.setClaim l r v) w
  written : t = { w with sessions := t.sessions, links := t.links }
  writtenOther : ∀ m : Link, m ≠ l → t.session m = w.session m
  writtenOwn : RecordsWritten (w.session l) (t.session l)

section
variable {l : Link} {r : Rail} {v : Nat} {s c w t : State} (h : ClaimServed l r v s c w t)
include h

theorem ClaimServed.rail (q : Rail) : t.rail q = w.rail q := by
  rw [h.written]
  rfl

theorem ClaimServed.claim : t.claim l r = v := by
  have hw : w.claim l r = v := by
    rw [State.claim_of_claims_eq (h.reacts.claims r) l, State.claim, State.rail_setClaim, if_pos rfl]
    exact (get_set ..).trans (if_pos rfl)
  rw [← hw, State.claim, State.claim, h.rail]

theorem ClaimServed.timestamp : w.timestamp = s.timestamp := by
  rw [h.reacts.rest, h.closed]
  rfl

theorem ClaimServed.links : w.links = s.links := by
  rw [h.reacts.rest, h.closed]
  rfl

theorem ClaimServed.beside : ReactionBeside l (s.setClaim l r v) t := by
  refine reactionBeside_of h.reacts ?_ h.closedOther h.written h.writtenOther
  rw [h.closed]
  rfl

theorem ClaimServed.served : ServedSession l s t := by
  have hall := (h.closedOwn.trans (h.reacts.session l)).trans h.writtenOwn
  rw [session_leased, if_pos rfl] at hall
  exact hall

/-- The queue keeps what it held when the entry was rewritten. -/
theorem ClaimServed.grows : (c.session l).queue <+: (w.session l).queue := h.reacts.grows l

theorem ClaimServed.leaves (x : Rail) : w.outstanding l x = none ∨ w.outstanding l x = c.outstanding l x :=
  h.reacts.leaves l x

end

theorem recordsWritten_closeOutstanding (l : Link) (r : Rail) (code : EventCode) (s : State) :
    RecordsWritten (s.session l) ((closeOutstanding l r code s).session l) := by
  unfold RecordsWritten
  have h := session_closeOutstanding l r code s
  generalize (closeOutstanding l r code s).session l = x at h
  rw [h]

theorem outstanding_leased (s : State) (l : Link) (x : Rail) : (s.leased l).outstanding l x = s.outstanding l x :=
  outstanding_leaseRestarted s l x

theorem closing_leased (s : State) (l : Link) (r : Rail) (code : EventCode) :
    (s.leased l).closing l r code = s.closing l r code := by
  unfold State.closing
  rw [outstanding_leased]
  rfl

theorem queue_leased (s : State) (l : Link) : ((s.leased l).session l).queue = (s.session l).queue := by
  rw [session_leased, if_pos rfl]

/-- A completion closed ahead of the rewriting of the claim entry. -/
theorem claimServed_closing (l : Link) (r : Rail) (v : Nat) (code : EventCode) (reserve : Option Link) {s t : State}
    (hwritten : t =
      { rewriteClaim reserve l r v (closeOutstanding l r code (s.leased l)) with sessions := t.sessions, links := t.links })
    (hother : ∀ m : Link, m ≠ l →
      t.session m = (rewriteClaim reserve l r v (closeOutstanding l r code (s.leased l))).session m)
    (hown : RecordsWritten ((rewriteClaim reserve l r v (closeOutstanding l r code (s.leased l))).session l) (t.session l)) :
    ClaimServed l r v s (closeOutstanding l r code (s.leased l))
      (rewriteClaim reserve l r v (closeOutstanding l r code (s.leased l))) t where
  closed := closeOutstanding_eq l r code (s.leased l)
  closedOther m hm := by rw [session_closeOutstanding_other l r code (s.leased l) hm, session_leased, if_neg hm]
  closedOwn := recordsWritten_closeOutstanding ..
  reacts := reaction_railTurn reserve [] ⟨(closeOutstanding l r code (s.leased l)).setClaim l r v, []⟩
  written := hwritten
  writtenOther := hother
  writtenOwn := hown

/-- The closing record stands in the session's queue after a claim entry's rewriting and what follows. -/
theorem queue_after_closing (l : Link) (r : Rail) (code : EventCode) {s w : State}
    (hgrows : ((closeOutstanding l r code (s.leased l)).session l).queue <+: (w.session l).queue) :
    (s.session l).queue ++ s.closing l r code <+: (w.session l).queue := by
  rw [session_closeOutstanding, closing_leased, queue_leased] at hgrows
  exact hgrows

/-- A completion answered at once after the rewriting of the claim entry, or set up. -/
theorem claimServed_setUp (l : Link) (r : Rail) (v : Nat) (reserve : Option Link) (o : Outstanding)
    (outcome : Option (EventCode × Nat × Detail)) (s : State) (tag : Byte) (st : Status) (data : List Byte) :
    ClaimServed l r v s (closeOutstanding l r .superseded (s.leased l))
      (rewriteClaim reserve l r v (closeOutstanding l r .superseded (s.leased l)))
      ((setUp l r o outcome (rewriteClaim reserve l r v (closeOutstanding l r .superseded (s.leased l)))).respond l tag st
        data) := by
  generalize hw : rewriteClaim reserve l r v (closeOutstanding l r .superseded (s.leased l)) = w
  have hset := setUp_eq l r o outcome w
  have hother := fun m => session_setUp_other (m := m) l r o outcome w
  have hown := recordsWritten_setUp l r o outcome w
  subst hw
  refine claimServed_closing l r v .superseded reserve ?_ hother hown
  rw [State.respond_eq]
  generalize rewriteClaim reserve l r v (closeOutstanding l r .superseded (s.leased l)) = w at hset
  generalize setUp l r o outcome w = z at hset
  rw [hset]

section
variable {l : Link} {r : Rail} {o : Outstanding} {outcome : Option (EventCode × Nat × Detail)} {s w : State}

theorem queue_setUp_grows : (w.session l).queue <+: ((setUp l r o outcome w).session l).queue := by
  rw [session_setUp]
  cases outcome with
  | none => exact List.prefix_refl _
  | some d => exact List.prefix_append ..

theorem outstanding_setUp_other {x : Rail} (hx : x ≠ r) : (setUp l r o outcome w).outstanding l x = w.outstanding l x := by
  unfold State.outstanding
  rw [session_setUp]
  cases outcome with
  | none => exact (get_set ..).trans (if_neg hx)
  | some d => exact (get_set ..).trans (if_neg hx)

theorem setUp_answered {d : EventCode × Nat × Detail} (h : outcome = some d) :
    (setUp l r o outcome w).outstanding l r = none
      ∧ ((setUp l r o outcome w).session l).queue.getLast? = some (answerRecord r o.tag w.timestamp d) := by
  unfold State.outstanding
  rw [session_setUp, h]
  exact ⟨(get_set ..).trans (if_pos rfl), List.getLast?_concat⟩

theorem setUp_outstanding (h : outcome = none) : (setUp l r o outcome w).outstanding l r = some o := by
  unfold State.outstanding
  rw [session_setUp, h]
  exact (get_set ..).trans (if_pos rfl)

end

/-- The closing record by the completion that was outstanding. -/
theorem prefix_closing {s : State} {l : Link} {r : Rail} {code : EventCode} {q : List EventRecord}
    (h : (s.session l).queue ++ s.closing l r code <+: q) :
    (match s.outstanding l r with
      | some o =>
        (s.session l).queue ++ [⟨code, some r, some o.tag, (s.rail r).level, .absent, s.timestamp⟩] <+: q
      | none => (s.session l).queue <+: q) := by
  unfold State.closing at h
  cases ho : s.outstanding l r with
  | some o =>
    rw [ho] at h
    exact h
  | none =>
    rw [ho] at h
    rwa [List.append_nil] at h

/-- The completions on other rails after a claim entry's rewriting. -/
theorem outstanding_after_closing (l : Link) (r : Rail) (code : EventCode) {s w : State} {x : Rail}
    (h : w.outstanding l x = none ∨ w.outstanding l x = (closeOutstanding l r code (s.leased l)).outstanding l x) :
    w.outstanding l x = none ∨ w.outstanding l x = s.outstanding l x := by
  rw [outstanding_closeOutstanding, outstanding_leased] at h
  split at h
  · exact .inl (h.elim id id)
  · exact h

/-- Settles O26: the completion closed, the entry rewritten, the CLAIM-WAIT set up. -/
theorem claimIsTaken : Obligations.ClaimIsTaken := by
  intro l f s r hp hr hzero hlevel hroom
  let o : Outstanding := ⟨.claimWait (argByte f 1).toNat, f.tag⟩
  have hroom' : ¬ 24 ≤ ((s.leased l).session l).roomUsed := by
    rw [State.leased, roomUsed_leaseRestarted]
    exact Nat.not_le.mpr hroom
  have hanswer : claimAnswer l f (s.leased l) = ⟨claimTaken l r (argByte f 1).toNat f.tag (s.leased l), .accepted, []⟩ :=
    (claimAnswer_of_level (t := s.leased l) (Names.namedRail hr) hzero hlevel).trans (if_neg hroom')
  have hserve : s.serve .claim l f (claimAnswer l f) = (claimAnswer l f (s.leased l)).st.respond l f.tag
      (claimAnswer l f (s.leased l)).status (claimAnswer l f (s.leased l)).data := hp.serve_eq nofun nofun _
  rw [hanswer] at hserve
  have hserved (outcome) := claimServed_setUp l r (argByte f 1).toNat (some l) o outcome s f.tag .accepted []
  unfold claimTaken at hserve
  generalize rewriteClaim (some l) l r (argByte f 1).toNat (closeOutstanding l r .superseded (s.leased l)) = w at hserve hserved
  replace hserved := hserved (claimOutcome (w.rail r) (argByte f 1).toNat)
  have hqueue : (s.session l).queue ++ s.closing l r .superseded <+: (w.session l).queue :=
    queue_after_closing l r .superseded hserved.grows
  have hlinks : (setUp l r o (claimOutcome (w.rail r) (argByte f 1).toNat) w).links = s.links := by
    rw [setUp_eq]
    exact hserved.links
  have hnow : w.timestamp = s.timestamp := hserved.timestamp
  refine ⟨_, congrArg Host.Outcome.next hserve, answered_respond hlinks, hserved.claim, hserved.beside, hserved.served,
    prefix_closing (hqueue.trans queue_setUp_grows), fun x hx => ?_, ?_⟩
  · have hx' := outstanding_after_closing l r .superseded (hserved.leaves x)
    rw [← outstanding_setUp_other (o := o) (outcome := claimOutcome (w.rail r) (argByte f 1).toNat) hx] at hx'
    exact hx'
  · have hrail : ((setUp l r o (claimOutcome (w.rail r) (argByte f 1).toNat) w).respond l f.tag .accepted []).rail r = w.rail r :=
      hserved.rail r
    rw [hrail, ← hnow]
    split
    · next hfault => exact setUp_answered (if_pos hfault)
    · next hfault =>
      split
      · next hon => exact setUp_answered ((if_neg hfault).trans (if_pos hon))
      · next hon => exact setUp_outstanding ((if_neg hfault).trans (if_neg hon))

/-- Settles O28: the completion closed, the entry set to 0, the OFF-WAIT set up. -/
theorem releaseWithWaitIsTaken : Obligations.ReleaseWithWaitIsTaken := by
  intro l f s r hp hr hwait hroom
  let o : Outstanding := ⟨.offWait, f.tag⟩
  have hroom' : ¬ 24 ≤ ((s.leased l).session l).roomUsed := by
    rw [State.leased, roomUsed_leaseRestarted]
    exact Nat.not_le.mpr hroom
  have hanswer : releaseAnswer l f (s.leased l) = ⟨releaseWaiting l r f.tag (s.leased l), .accepted, []⟩ :=
    (releaseAnswer_one (t := s.leased l) (Names.namedRail hr) hwait).trans (if_neg hroom')
  have hserve : s.serve .release l f (releaseAnswer l f) = (releaseAnswer l f (s.leased l)).st.respond l f.tag
      (releaseAnswer l f (s.leased l)).status (releaseAnswer l f (s.leased l)).data := hp.serve_eq nofun nofun _
  rw [hanswer] at hserve
  have hserved (outcome) := claimServed_setUp l r 0 (some l) o outcome s f.tag .accepted []
  unfold releaseWaiting at hserve
  generalize rewriteClaim (some l) l r 0 (closeOutstanding l r .superseded (s.leased l)) = w at hserve hserved
  replace hserved := hserved (offOutcome (w.rail r))
  have hqueue : (s.session l).queue ++ s.closing l r .superseded <+: (w.session l).queue :=
    queue_after_closing l r .superseded hserved.grows
  have hlinks : (setUp l r o (offOutcome (w.rail r)) w).links = s.links := by
    rw [setUp_eq]
    exact hserved.links
  have hnow : w.timestamp = s.timestamp := hserved.timestamp
  refine ⟨_, congrArg Host.Outcome.next hserve, answered_respond hlinks, hserved.claim, hserved.beside, hserved.served,
    prefix_closing (hqueue.trans queue_setUp_grows), fun x hx => ?_, ?_⟩
  · have hx' := outstanding_after_closing l r .superseded (hserved.leaves x)
    rw [← outstanding_setUp_other (o := o) (outcome := offOutcome (w.rail r)) hx] at hx'
    exact hx'
  · have hrail : ((setUp l r o (offOutcome (w.rail r)) w).respond l f.tag .accepted []).rail r = w.rail r :=
      hserved.rail r
    rw [hrail, ← hnow]
    split
    · next hheld => exact setUp_answered (if_pos hheld)
    · next hheld =>
      split
      · next hoff => exact setUp_answered ((if_neg hheld).trans (if_pos hoff))
      · next hoff => exact setUp_outstanding ((if_neg hheld).trans (if_neg hoff))

/-- A RELEASE without wait that finds a CLAIM-WAIT. -/
theorem releaseNow_of_claimWait {l : Link} {r : Rail} {s : State} {level : Nat} {tag : Byte}
    (h : s.outstanding l r = some ⟨.claimWait level, tag⟩) :
    releaseNow l r s = rewriteClaim none l r 0 (closeOutstanding l r .cancelled s) := by
  unfold releaseNow
  rw [h]

/-- A RELEASE without wait that finds no CLAIM-WAIT. -/
theorem releaseNow_of_none {l : Link} {r : Rail} {s : State}
    (h : ∀ level tag, s.outstanding l r ≠ some ⟨.claimWait level, tag⟩) :
    releaseNow l r s = rewriteClaim none l r 0 s := by
  unfold releaseNow
  split
  · next ho => exact absurd ho (h _ _)
  · rfl

/-- A response after the rewriting of a claim entry writes no session. -/
theorem claimServed_respond (l : Link) (r : Rail) (v : Nat) (reserve : Option Link) {s c : State}
    (hclosed : c = { s.leased l with sessions := c.sessions }) (hother : ∀ m : Link, m ≠ l → c.session m = s.session m)
    (hown : RecordsWritten ((s.leased l).session l) (c.session l)) (tag : Byte) (st : Status) (data : List Byte) :
    ClaimServed l r v s c (rewriteClaim reserve l r v c) ((rewriteClaim reserve l r v c).respond l tag st data) := by
  have hreacts : Reaction (c.setClaim l r v) (rewriteClaim reserve l r v c) :=
    reaction_railTurn reserve [] ⟨c.setClaim l r v, []⟩
  generalize rewriteClaim reserve l r v c = w at hreacts
  exact ⟨hclosed, hother, hown, hreacts, rfl, fun _ _ => rfl, rfl⟩

/-- Settles O27: a CLAIM-WAIT closed, or nothing, and the entry set to 0. -/
theorem releaseWithoutWaitIsTaken : Obligations.ReleaseWithoutWaitIsTaken := by
  intro l f s r hp hr hwait
  have hserve : s.serve .release l f (releaseAnswer l f) = (releaseAnswer l f (s.leased l)).st.respond l f.tag
      (releaseAnswer l f (s.leased l)).status (releaseAnswer l f (s.leased l)).data := hp.serve_eq nofun nofun _
  rw [releaseAnswer_zero (t := s.leased l) (Names.namedRail hr) hwait] at hserve
  by_cases hclaim : ∃ level tag, s.outstanding l r = some ⟨.claimWait level, tag⟩
  · obtain ⟨level, tag, ho⟩ := hclaim
    rw [releaseNow_of_claimWait ((outstanding_leased s l r).trans ho)] at hserve
    have hserved : ClaimServed l r 0 s (closeOutstanding l r .cancelled (s.leased l))
        (rewriteClaim none l r 0 (closeOutstanding l r .cancelled (s.leased l)))
        ((rewriteClaim none l r 0 (closeOutstanding l r .cancelled (s.leased l))).respond l f.tag .ok []) :=
      claimServed_respond l r 0 none (closeOutstanding_eq l r .cancelled (s.leased l)) (fun m hm => by
        rw [session_closeOutstanding_other l r .cancelled (s.leased l) hm, session_leased, if_neg hm])
        (recordsWritten_closeOutstanding ..) f.tag .ok []
    generalize rewriteClaim none l r 0 (closeOutstanding l r .cancelled (s.leased l)) = w at hserve hserved
    have hqueue : (s.session l).queue ++ s.closing l r .cancelled <+: (w.session l).queue :=
      queue_after_closing l r .cancelled hserved.grows
    have hleaves (x : Rail) := outstanding_after_closing l r .cancelled (hserved.leaves x)
    refine ⟨_, congrArg Host.Outcome.next hserve, answered_respond hserved.links, hserved.claim, hserved.beside,
      hserved.served, fun level' tag' ho' => ⟨?_, ?_⟩, (List.prefix_append ..).trans hqueue, hleaves⟩
    · have hr' := hserved.leaves r
      rw [outstanding_closeOutstanding, if_pos rfl] at hr'
      exact hr'.elim id id
    · have h := prefix_closing hqueue
      rw [ho'] at h
      exact h
  · have hnone : ∀ level tag, s.outstanding l r ≠ some ⟨.claimWait level, tag⟩ := fun level tag ho =>
      hclaim ⟨level, tag, ho⟩
    rw [releaseNow_of_none fun level tag => by rw [outstanding_leased]; exact hnone level tag] at hserve
    have hserved : ClaimServed l r 0 s (s.leased l) (rewriteClaim none l r 0 (s.leased l))
        ((rewriteClaim none l r 0 (s.leased l)).respond l f.tag .ok []) :=
      claimServed_respond l r 0 none rfl (fun m hm => (session_leased s l m).trans (if_neg hm)) rfl f.tag .ok []
    generalize rewriteClaim none l r 0 (s.leased l) = w at hserve hserved
    have hqueue : (s.session l).queue <+: (w.session l).queue := queue_leased s l ▸ hserved.grows
    refine ⟨_, congrArg Host.Outcome.next hserve, answered_respond hserved.links, hserved.claim, hserved.beside,
      hserved.served, fun level tag ho => absurd ho (hnone level tag), hqueue, fun x => ?_⟩
    have hx := hserved.leaves x
    rw [outstanding_leased] at hx
    exact hx

end Sys2Proof.Machine
end

/-! ### How an event ends: the state the arbiter leaves, and what each session makes of the announcements -/

section
namespace Sys2Proof.Machine

/-- The event with its grants made (R83), ahead of the delivery of its announcements. -/
def Event.granted (before : State) (e : Event) : Event := arbitrate before Config.grantRounds { e with log := [] }

/-- The announcements of an event, in the order in which the sessions take them (R103, R125, R157). -/
def Event.told (lead : List Announcement) (before : State) (e : Event) : List Announcement :=
  (lead ++ placeGroups e.log (e.granted before).log).filter fun a => a.stands (e.granted before).st

section
variable (reserve : Option Link) (lead : List Announcement) (before : State) (e : Event)

theorem conclude_eq : conclude reserve lead before e = deliver reserve (e.told lead before) (e.granted before).st := rfl

theorem onlyRails_granted : OnlyRails e.st (e.granted before).st := onlyRails_arbitrate before _ { e with log := [] }

theorem moves_granted : Moves e.st (e.granted before).st := moves_arbitrate before _ { e with log := [] }

theorem railsReact_granted : RailsReact e.st (e.granted before).st := railsReact_arbitrate before _ { e with log := [] }

/-- The delivery of the announcements writes the sessions alone. -/
theorem conclude_beside : conclude reserve lead before e =
    { (e.granted before).st with sessions := (conclude reserve lead before e).sessions } := by
  rw [conclude_eq]
  exact (heard_deliver ..).rest

theorem rail_conclude (r : Rail) : (conclude reserve lead before e).rail r = (e.granted before).st.rail r := by
  rw [conclude_beside]
  rfl

theorem claim_conclude (l : Link) (r : Rail) : (conclude reserve lead before e).claim l r = (e.granted before).st.claim l r := by
  unfold State.claim
  rw [rail_conclude]

theorem queued_conclude (r : Rail) : (conclude reserve lead before e).queued r = (e.granted before).st.queued r := by
  rw [conclude_beside]
  rfl

theorem session_conclude (l : Link) : (conclude reserve lead before e).session l =
    (e.told lead before).foldl (Session.takes (e.granted before).st reserve l) (e.st.session l) := by
  have hsame : (e.granted before).st.session l = e.st.session l := by
    rw [onlyRails_granted before e]
    rfl
  rw [conclude_eq, session_deliver, hsame]

end

/-! ### Announcements taken by one session -/

section
variable (s : State) (reserve : Option Link) (l : Link)

theorem Session.offered_kept (x : Session) (n : Nat) (e : EventRecord) :
    (x.offered n e).state = x.state ∧ (x.offered n e).mask = x.mask := by
  unfold Session.offered
  split
  · exact ⟨rfl, rfl⟩
  · exact ⟨rfl, rfl⟩

theorem Session.offered_grows (x : Session) (n : Nat) (e : EventRecord) : x.queue <+: (x.offered n e).queue := by
  unfold Session.offered
  split
  · exact List.prefix_append ..
  · exact List.prefix_refl _

theorem Session.resolved_grows (x : Session) (r : Rail) (code : EventCode) (level : Nat) (d : Detail) (now : BitVec 16) :
    x.queue <+: (x.resolved r code level d now).queue := by
  unfold Session.resolved
  split
  · exact List.prefix_append ..
  · exact List.prefix_refl _

theorem Session.settledBy_grows (x : Session) (a : Announcement) : x.queue <+: (x.settledBy s a).queue := by
  unfold Session.settledBy
  split
  · exact Session.resolved_grows ..
  · exact List.prefix_refl _

theorem Session.takes_of_unattached {x : Session} (h : x.state ≠ .attached) (a : Announcement) :
    Session.takes s reserve l x a = x := if_neg h

theorem Session.takes_kept (x : Session) (a : Announcement) :
    (Session.takes s reserve l x a).state = x.state ∧ (Session.takes s reserve l x a).mask = x.mask := by
  obtain ⟨hstate, hmask⟩ := settledBy_kept s x a
  unfold Session.takes
  split
  · split
    · next e _ =>
      obtain ⟨hstate', hmask'⟩ := Session.offered_kept (x.settledBy s a) (reservedFor reserve l) e
      exact ⟨hstate'.trans hstate, hmask'.trans hmask⟩
    · exact ⟨hstate, hmask⟩
  · exact ⟨rfl, rfl⟩

theorem Session.takes_grows (x : Session) (a : Announcement) : x.queue <+: (Session.takes s reserve l x a).queue := by
  unfold Session.takes
  split
  · split
    · exact (Session.settledBy_grows s x a).trans (Session.offered_grows ..)
    · exact Session.settledBy_grows s x a
  · exact List.prefix_refl _

theorem Session.foldl_takes_grows (log : List Announcement) (x : Session) :
    x.queue <+: (log.foldl (Session.takes s reserve l) x).queue := by
  induction log generalizing x with
  | nil => exact List.prefix_refl _
  | cons a log ih => exact (Session.takes_grows s reserve l x a).trans (ih _)

/-- An announcement that resolves no completion. -/
def Announcement.quiet (a : Announcement) : Prop := ∀ w level, resolution a w level = none

theorem Session.settledBy_of_quiet {a : Announcement} (h : a.quiet) (x : Session) : x.settledBy s a = x := by
  unfold Session.settledBy State.resolutionFor
  cases a.rail? with
  | none => rfl
  | some r =>
    dsimp only [Option.bind_some]
    cases x.table.get r with
    | none => rfl
    | some o =>
      dsimp only [Option.bind_some]
      rw [h]
      rfl

/-- Announcements that resolve no completion offer an ATTACHED session their notices, in their order. -/
theorem Session.foldl_takes_of_quiet {log : List Announcement} (h : ∀ a ∈ log, a.quiet) {x : Session}
    (hx : x.state = .attached) :
    log.foldl (Session.takes s reserve l) x =
      (log.filterMap (s.noticeFrom l x.mask)).foldl (fun x e => x.offered (reservedFor reserve l) e) x := by
  induction log generalizing x with
  | nil => rfl
  | cons a log ih =>
    have hquiet := Session.settledBy_of_quiet s (h a List.mem_cons_self) x
    obtain ⟨hstate, hmask⟩ := Session.takes_kept s reserve l x a
    rw [List.foldl_cons, ih (fun b hb => h b (List.mem_cons_of_mem a hb)) (hstate.trans hx), hmask, List.filterMap_cons]
    unfold Session.takes
    rw [if_pos hx, hquiet]
    cases s.noticeFrom l x.mask a with
    | none => rfl
    | some e => rfl

/-- Of notices offered one after another, the first that the room allows are admitted (R150). -/
theorem Session.queue_foldl_offered (ns : List EventRecord) (x : Session) :
    (ns.foldl (fun x e => x.offered 0 e) x).queue = x.queue ++ ns.take (24 - x.roomUsed) := by
  induction ns generalizing x with
  | nil => simp
  | cons e ns ih =>
    rw [List.foldl_cons, ih]
    by_cases hroom : x.roomUsed < 24
    · have hoffered : x.offered 0 e = { x with queue := x.queue ++ [e], alertn := .low } := if_pos hroom
      have hused : ({ x with queue := x.queue ++ [e], alertn := .low } : Session).roomUsed = x.roomUsed + 1 := by
        unfold Session.roomUsed Session.outstandingCount
        simp only [List.length_append, List.length_singleton]
        omega
      obtain ⟨n, hn⟩ : ∃ n, 24 - x.roomUsed = n + 1 := ⟨24 - x.roomUsed - 1, by omega⟩
      rw [hoffered, hused, hn, List.take_succ_cons, List.append_assoc, show 24 - (x.roomUsed + 1) = n by omega]
      rfl
    · have hoffered : x.offered 0 e = { x with lost := min (x.lost + 1) 255 } := if_neg hroom
      have hused : ({ x with lost := min (x.lost + 1) 255 } : Session).roomUsed = x.roomUsed := rfl
      rw [hoffered, hused, show 24 - x.roomUsed = 0 by omega, List.take_zero, List.take_zero]

end

/-- What leads an event's announcements is offered first to the sessions that are ATTACHED. -/
theorem offered_conclude {lead : List Announcement} {before : State} {e : Event}
    (hquiet : ∀ a ∈ lead, a.quiet) (hstands : ∀ a ∈ lead, a.stands (e.granted before).st = true) (l : Link) :
    Offered e.st (conclude none lead before e) l
      (lead.filterMap ((e.granted before).st.noticeFrom l (e.st.session l).mask)) := by
  intro hattached
  have htold : e.told lead before =
      lead ++ (placeGroups e.log (e.granted before).log).filter fun a => a.stands (e.granted before).st := by
    unfold Event.told
    rw [List.filter_append, List.filter_eq_self.mpr hstands]
  rw [session_conclude, htold, List.foldl_append, Session.foldl_takes_of_quiet _ none l hquiet hattached,
    ← Session.queue_foldl_offered]
  exact Session.foldl_takes_grows ..

end Sys2Proof.Machine
end

/-! ### A change of the supply state (R113 to R125) -/

section
namespace Sys2Proof.Machine

theorem le_foldl_max {α : Type} (f : α → Nat) {xs : List α} {a : α} (ha : a ∈ xs) (n : Nat) :
    f a ≤ xs.foldl (fun m x => max m (f x)) n := by
  have hstart : ∀ (ys : List α) (m : Nat), m ≤ ys.foldl (fun m x => max m (f x)) m := by
    intro ys
    induction ys with
    | nil => exact Nat.le_refl
    | cons y ys ih => exact fun m => Nat.le_trans (Nat.le_max_left m (f y)) (ih _)
  induction xs generalizing n with
  | nil => exact absurd ha List.not_mem_nil
  | cons x xs ih =>
    rcases List.mem_cons.mp ha with rfl | ha
    · exact Nat.le_trans (Nat.le_max_right n (f a)) (hstart xs _)
    · exact ih ha _

theorem RailRuntime.claim_le_claimDemand (x : RailRuntime) (l : Link) : x.claims.get l ≤ x.claimDemand :=
  le_foldl_max x.claims.get (mem_allLinks l) 0

theorem map_filter_eq_filterMap {α β : Type} (p : α → Bool) (f : α → β) (xs : List α) :
    (xs.filter p).map f = xs.filterMap fun x => if p x then some (f x) else none := by
  rw [← List.filterMap_eq_map, List.filterMap_filter]
  rfl

/-- The announcement of a change of one rail's suspended flag (R122). -/
def flagAnnouncement (b : Bool) : Rail → Announcement := if b then .suspended else .resumed

/-- The notices of a change of the supply state (R122, R125), by what it announces. -/
theorem filterMap_supplyChanged (st : SupplyState) {s t w : State} (l : Link)
    (hrail : ∀ r, t.rail r = w.rail r) (hclaims : ∀ r, (w.rail r).claims = (s.rail r).claims)
    (hnow : w.timestamp = s.timestamp) (hsupply : w.supply.state = st) :
    (supplyChanged st s).log.filterMap (w.noticeFrom l (s.session l).mask) = supplyNotices s t l st := by
  have hflags (q : Rail) := s.flagAfter_eq s.supply.state st q
  have hclaimant (r : Rail) : w.claimant l r = (s.claim l r != 0) := by
    unfold State.claimant
    rw [State.claim_of_claims_eq (hclaims r) l]
  have hlead : w.noticeFrom l (s.session l).mask (.supplyChanged st) =
      if (s.session l).mask.supplyChange then some ⟨.supplyChange, none, none, 0, .supply st, s.timestamp⟩ else none := by
    rw [← hnow]
    rfl
  have hfirst (rest : List Announcement) :
      (Announcement.supplyChanged st :: rest).filterMap (w.noticeFrom l (s.session l).mask) =
        (if (s.session l).mask.supplyChange then [⟨.supplyChange, none, none, 0, .supply st, s.timestamp⟩] else [])
          ++ rest.filterMap (w.noticeFrom l (s.session l).mask) := by
    rw [List.filterMap_cons, hlead]
    cases (s.session l).mask.supplyChange <;> rfl
  have hflag (r : Rail) (b : Bool) : w.noticeFrom l (s.session l).mask (flagAnnouncement b r) =
      if (s.session l).mask.suspendResume && (s.claim l r != 0) then
        some ⟨if b then .suspended else .resumed, some r, none, (t.rail r).level, .supply st, s.timestamp⟩
      else none := by
    rw [hrail, ← hnow, ← hsupply, ← hclaimant]
    cases b <;> rfl
  unfold supplyNotices
  dsimp only
  cases hsuspension : suspensionAt s.supply.state st with
  | none =>
    have hlog : (supplyChanged st s).log = [.supplyChanged st] := by
      unfold supplyChanged
      rw [hsuspension]
    have hnone : allRails.filter (fun r => s.claim l r != 0 && s.flagAfter s.supply.state st r != (s.rail r).suspended) = [] :=
      List.filter_eq_nil_iff.mpr fun r _ h => by
        rw [hflags, hsuspension] at h
        simp at h
    rw [hlog, hfirst, hnone]
    simp
  | some b =>
    have hlog : (supplyChanged st s).log = .supplyChanged st :: (allRails.filter fun r =>
        (s.record r).defined && (s.record r).shedClass == .shed && (s.rail r).suspended != b
          && (s.rail r).claimDemand != 0).map (flagAnnouncement b) := by
      unfold supplyChanged
      rw [hsuspension]
      cases b <;> rfl
    rw [hlog, hfirst, map_filter_eq_filterMap, List.filterMap_filterMap]
    congr 1
    cases hmask : (s.session l).mask.suspendResume with
    | false =>
      rw [if_neg Bool.false_ne_true]
      refine List.filterMap_eq_nil_iff.mpr fun r _ => ?_
      split
      · rw [Option.bind_some, hflag, hmask]
        rfl
      · rfl
    | true =>
      rw [if_pos rfl, map_filter_eq_filterMap]
      refine congrFun (congrArg List.filterMap (funext fun r => ?_)) _
      have hdemand : s.claim l r ≤ (s.rail r).claimDemand := (s.rail r).claim_le_claimDemand l
      have hflagged := hflags r
      rw [hsuspension] at hflagged
      generalize s.flagAfter s.supply.state st r = after at hflagged
      by_cases hshed : (s.record r).defined = true ∧ (s.record r).shedClass = .shed
      · replace hflagged : after = b := hflagged.trans (if_pos hshed)
        subst hflagged
        by_cases hclaim : s.claim l r = 0
        · rw [hclaim]
          split
          · rw [Option.bind_some, hflag, hmask, hclaim]
            rfl
          · rfl
        · have hpositive : ((s.rail r).claimDemand != 0) = true := bne_iff_ne.mpr (by omega)
          have hclaim' : (s.claim l r != 0) = true := bne_iff_ne.mpr hclaim
          have hcomm : (after != (s.rail r).suspended) = ((s.rail r).suspended != after) := bne_comm
          rw [hshed.1, hshed.2, hpositive, hclaim', hcomm]
          cases hne : (s.rail r).suspended != after with
          | false => rfl
          | true =>
            change (some _).bind _ = some _
            rw [Option.bind_some, hflag, hmask, hclaim']
            rfl
      · replace hflagged : after = (s.rail r).suspended := hflagged.trans (if_neg hshed)
        rw [hflagged, bne_self_eq_false, Bool.and_false, if_neg Bool.false_ne_true]
        rw [if_neg]
        · rfl
        · simp only [Bool.and_eq_true, beq_iff_eq]
          exact fun h => hshed h.1.1

/-- What leads the announcements of a change of the supply state resolves no completion and always stands. -/
theorem supplyChanged_log {st : SupplyState} {s : State} {a : Announcement} (ha : a ∈ (supplyChanged st s).log) :
    a.quiet ∧ ∀ t : State, a.stands t = true := by
  have hfirst : Announcement.quiet (.supplyChanged st) ∧ ∀ t : State, (Announcement.supplyChanged st).stands t = true :=
    ⟨fun w _ => by cases w <;> rfl, fun _ => rfl⟩
  unfold supplyChanged at ha
  dsimp only at ha
  split at ha
  · next b _ =>
    rcases List.mem_cons.mp ha with rfl | ha
    · exact hfirst
    · obtain ⟨r, -, rfl⟩ := List.mem_map.mp ha
      cases b
      · exact ⟨fun w _ => by cases w <;> rfl, fun _ => rfl⟩
      · exact ⟨fun w _ => by cases w <;> rfl, fun _ => rfl⟩
  · rw [List.mem_singleton.mp ha]
    exact hfirst

/-- The rails as a change of the supply state lets them act: sent into DRAINING where it enters COLLAPSE (R123). -/
def supplyFound (st : SupplyState) (s : State) : State :=
  let t := s.supplied (s.supply.entering s.part st)
  if st = .collapse then t.drainRunning .collapse else t

theorem changeSupply_eq_railTurn (st : SupplyState) (s : State) :
    changeSupply st s = railTurn none (supplyChanged st s).log ⟨supplyFound st s, []⟩ := by
  rw [changeSupply_eq, supplyChanged_st]
  rfl

theorem onlyRails_supplyFound (st : SupplyState) (s : State) :
    OnlyRails (s.supplied (s.supply.entering s.part st)) (supplyFound st s) := by
  unfold supplyFound
  dsimp only
  split
  · exact onlyRails_drainRunning ..
  · exact .refl _

theorem railsReact_supplyFound (st : SupplyState) (s : State) :
    RailsReact (s.supplied (s.supply.entering s.part st)) (supplyFound st s) := by
  unfold supplyFound
  dsimp only
  split
  · exact railsReact_drainRunning _ _
  · exact .refl _

/-- A change of the supply state: the monitor, the limit and the flags, and what the rails and the arbiter make of them. -/
theorem reaction_changeSupply (st : SupplyState) (s : State) :
    Reaction (s.supplied (s.supply.entering s.part st)) (changeSupply st s) := by
  rw [changeSupply_eq_railTurn]
  have honly := onlyRails_supplyFound st s
  have hreact := railsReact_supplyFound st s
  generalize supplyFound st s = m at honly hreact
  exact reaction_conclude none (supplyChanged st s).log m _ (railEvent ⟨m, []⟩) (honly.trans (onlyRails_railEvent ⟨m, []⟩))
    (hreact.trans (railsReact_railEvent ⟨m, []⟩))

/-- A change of the supply state offers its notices first (R125). -/
theorem offered_changeSupply (st : SupplyState) (s : State) (l : Link) :
    Offered s (changeSupply st s) l (supplyNotices s (changeSupply st s) l st) := by
  have hreaction := reaction_changeSupply st s
  rw [changeSupply_eq_railTurn] at hreaction ⊢
  have honly := onlyRails_supplyFound st s
  generalize supplyFound st s = m at honly hreaction
  have hevent : OnlyRails (s.supplied (s.supply.entering s.part st)) (railEvent ⟨m, []⟩).st :=
    honly.trans (onlyRails_railEvent ⟨m, []⟩)
  have hrail (r : Rail) : (railTurn none (supplyChanged st s).log ⟨m, []⟩).rail r = ((railEvent ⟨m, []⟩).granted m).st.rail r :=
    rail_conclude none (supplyChanged st s).log m (railEvent ⟨m, []⟩) r
  have hoffered := offered_conclude (lead := (supplyChanged st s).log) (before := m) (e := railEvent ⟨m, []⟩)
    (fun a ha => (supplyChanged_log ha).1) (fun a ha => (supplyChanged_log ha).2 _) l
  have hgranted : OnlyRails (s.supplied (s.supply.entering s.part st)) ((railEvent ⟨m, []⟩).granted m).st :=
    hevent.trans (onlyRails_granted m _)
  have hsession : (railEvent ⟨m, []⟩).st.session l = s.session l := hevent.session l
  unfold railTurn at hreaction hrail ⊢
  dsimp only at hreaction hrail ⊢
  generalize conclude none (supplyChanged st s).log m (railEvent ⟨m, []⟩) = t at hreaction hrail hoffered ⊢
  have hclaims (r : Rail) : (((railEvent ⟨m, []⟩).granted m).st.rail r).claims = (s.rail r).claims := by
    rw [← hrail, hreaction.claims, State.rail_supplied]
  unfold Offered at hoffered ⊢
  rw [hsession, filterMap_supplyChanged st l hrail hclaims hgranted.timestamp (by rw [hgranted.supply]; rfl)] at hoffered
  exact hoffered

/-- Settles O43. -/
theorem holdoffExpiryReturnsToNormal : Obligations.HoldoffExpiryReturnsToNormal := fun s hactive hstate htimer =>
  ⟨changeSupply .normal s, congrArg Host.Outcome.next (if_pos ⟨hactive, hstate, (Timer.expired_iff _).mpr htimer⟩),
    reaction_changeSupply .normal s, offered_changeSupply .normal s⟩

/-- The state with SENSE and the comparator outputs of a crossing (R114). -/
def State.crossed (s : State) (v : Nat) (w u : Side) : State :=
  { s with sense := v, supply := { s.supply with warnOut := w, critOut := u } }

/-- A crossing, by whether the table of R115 names another state. -/
theorem exec_of_crosses {c : Instr} {s : State} {v : Nat} {w u : Side} (hc : senseOf c = some v) (h : Crosses s c w u) :
    exec c s = .next (if supplyAfter c s.supply.state = s.supply.state then s.crossed v w u
      else changeSupply (supplyAfter c s.supply.state) (s.crossed v w u)) := by
  cases h with
  | fallWarn x hactive hside hsense =>
    obtain rfl : x = v := Option.some.inj hc
    change Host.Outcome.next (fallBelowWarn { s with sense := x }) = _
    refine congrArg Host.Outcome.next ((if_pos ⟨hactive, hside, hsense⟩).trans ?_)
    unfold State.crossed
    dsimp only
    cases s.supply.state with
    | normal => exact (if_neg nofun).symm
    | low => exact (if_pos rfl).symm
    | collapse => exact (if_pos rfl).symm
    | recovering => exact (if_neg nofun).symm
  | fallCrit x hactive hside hsense =>
    obtain rfl : x = v := Option.some.inj hc
    change Host.Outcome.next (fallBelowCrit { s with sense := x }) = _
    refine congrArg Host.Outcome.next ((if_pos ⟨hactive, hside, hsense⟩).trans ?_)
    unfold State.crossed
    dsimp only
    cases s.supply.state with
    | normal => exact (if_neg nofun).symm
    | low => exact (if_neg nofun).symm
    | collapse => exact (if_pos rfl).symm
    | recovering => exact (if_neg nofun).symm
  | riseCrit x hactive hside hsense =>
    obtain rfl : x = v := Option.some.inj hc
    change Host.Outcome.next (riseAboveCritBand { s with sense := x }) = _
    refine congrArg Host.Outcome.next ((if_pos ⟨hactive, hside, hsense⟩).trans ?_)
    unfold State.crossed
    dsimp only
    cases s.supply.state with
    | normal => exact (if_pos rfl).symm
    | low => exact (if_pos rfl).symm
    | collapse => exact (if_neg nofun).symm
    | recovering => exact (if_pos rfl).symm
  | riseWarn x hactive hside hsense =>
    obtain rfl : x = v := Option.some.inj hc
    change Host.Outcome.next (riseAboveWarnBand { s with sense := x }) = _
    refine congrArg Host.Outcome.next ((if_pos ⟨hactive, hside, hsense⟩).trans ?_)
    unfold State.crossed
    dsimp only
    cases s.supply.state with
    | normal => exact (if_pos rfl).symm
    | low => exact (if_neg nofun).symm
    | collapse => exact (if_neg nofun).symm
    | recovering => exact (if_pos rfl).symm

/-- A comparator event that is no crossing stores SENSE alone. -/
theorem exec_of_not_crosses {c : Instr} {s : State} {v : Nat} (hc : senseOf c = some v)
    (h : ∀ w u : Side, ¬ Crosses s c w u) : exec c s = .next { s with sense := v } := by
  cases c <;> simp only [senseOf, Option.some.injEq, reduceCtorEq] at hc
  case fallBelowWarn x =>
    subst hc
    exact congrArg Host.Outcome.next (if_neg fun hx => h _ _ (.fallWarn x hx.1 hx.2.1 hx.2.2))
  case fallBelowCrit x =>
    subst hc
    exact congrArg Host.Outcome.next (if_neg fun hx => h _ _ (.fallCrit x hx.1 hx.2.1 hx.2.2))
  case riseAboveCritBand x =>
    subst hc
    exact congrArg Host.Outcome.next (if_neg fun hx => h _ _ (.riseCrit x hx.1 hx.2.1 hx.2.2))
  case riseAboveWarnBand x =>
    subst hc
    exact congrArg Host.Outcome.next (if_neg fun hx => h _ _ (.riseWarn x hx.1 hx.2.1 hx.2.2))

theorem holdoffIn_eq (p : PartRecord) (st : SupplyState) :
    holdoffIn p st = if st = .recovering then .running (p.holdoffCode.toNat * 10) else .stopped := by
  cases st <;> rfl

/-- Settles O41. -/
theorem crossingsChangeTheSupplyState : Obligations.CrossingsChangeTheSupplyState := by
  refine ⟨fun c s v w u hc hcross => ?_, fun c s v hc h => exec_of_not_crosses hc h⟩
  have hexec := exec_of_crosses hc hcross
  refine ⟨fun hsame => ?_, fun hnew => ⟨changeSupply (supplyAfter c s.supply.state) (s.crossed v w u), ?_, ?_, fun l => ?_⟩⟩
  · rw [hexec, if_pos hsame]
    rfl
  · rw [hexec, if_neg hnew]
  · have hreaction := reaction_changeSupply (supplyAfter c s.supply.state) (s.crossed v w u)
    unfold SupplyMonitor.entering at hreaction
    rw [holdoffIn_eq] at hreaction
    exact hreaction
  · exact offered_changeSupply (supplyAfter c s.supply.state) (s.crossed v w u) l

end Sys2Proof.Machine
end

/-! ### What one move makes of one rail's record -/

section
namespace Sys2Proof.Machine

/-- `y` is `x` but for its target and its hold set. -/
def OnlyAims (x y : RailRuntime) : Prop := y = { x with target := y.target, holdSet := y.holdSet }

theorem OnlyAims.refl (x : RailRuntime) : OnlyAims x x := rfl

theorem OnlyAims.trans {x y z : RailRuntime} (h : OnlyAims x y) (h' : OnlyAims y z) : OnlyAims x z := by
  unfold OnlyAims at *
  rw [h', h]

theorem SameButHolds.onlyAims {x y : RailRuntime} (h : SameButHolds x y) : OnlyAims x y := by
  unfold SameButHolds at h
  unfold OnlyAims
  rw [h]

section
variable {x y : RailRuntime} (h : OnlyAims x y)
include h

theorem OnlyAims.state : y.state = x.state := by rw [h]
theorem OnlyAims.level : y.level = x.level := by rw [h]
theorem OnlyAims.held : y.held = x.held := by rw [h]
theorem OnlyAims.slewOrigin : y.slewOrigin = x.slewOrigin := by rw [h]
theorem OnlyAims.drainFinished : y.drainFinished = x.drainFinished := by rw [h]

end

/-- What one move makes of the record `x` of rail `r`, whose table record is `rec` and whose request is `asks`. -/
inductive RailStep (r : Rail) (rec : RailRecord) (asks : Option (GrantKind × Nat)) (x y : RailRuntime) : Prop where
  | aims : OnlyAims x y → RailStep r rec asks x y
  | wait : x.state = .off → x.target ≠ 0 → SameButHolds (x.toWaiting r) y → RailStep r rec asks x y
  | unwait : x.state = .waiting → x.target = 0 → SameButHolds (x.toOff r) y → RailStep r rec asks x y
  | drain (c : DrainCause) : x.state.running = true → SameButHolds (x.toDraining r rec c) y → RailStep r rec asks x y
  | slewDown : x.state = .on → x.target ≠ 0 → x.target < x.level →
      SameButHolds (x.toSlewing r rec.slewTime.toNat) y → RailStep r rec asks x y
  | drained : x.state = .draining → x.drainFinished = true → SameButHolds (x.toDrained r) y → RailStep r rec asks x y
  | start (n : Nat) : asks = some (.start, n) → n = rec.costOf x.target → x.state = .waiting →
      SameButHolds (({ x with held := x.held + n } : RailRuntime).toRamping r rec.rampTime.toNat) y → RailStep r rec asks x y
  | backfeed (n : Nat) : asks = some (.start, n) → (rec.defined && rec.pgMode == .monitored) = true → x.pg = .high →
      x.state = .waiting → SameButHolds (x.toFault r .backfeed) y → RailStep r rec asks x y
  | raise (n : Nat) : asks = some (.raise, n) → n = rec.costOf x.target - rec.costOf x.level → x.state = .on → x.level < x.target →
      SameButHolds (({ x with held := x.held + n } : RailRuntime).toSlewing r rec.slewTime.toNat) y → RailStep r rec asks x y
  | wholeFall (level : Nat) : x.state = .slewing → x.target = 0 →
      SameButHolds ((x.calledBack r level).toDraining r rec .normal) y → RailStep r rec asks x y

theorem Move.railStep {s t : State} (h : Move s t) (r : Rail) : RailStep r (s.record r) (s.requestOf r) (s.rail r) (t.rail r) := by
  have other {q : Rail} {y : RailRuntime} (hb : Becomes s t q y) (hq : r ≠ q) :
      RailStep r (s.record r) (s.requestOf r) (s.rail r) (t.rail r) := .aims (hb.other hq).onlyAims
  have own {q : Rail} {y : RailRuntime} (hb : Becomes s t q y)
      (hstep : q = r → SameButHolds y (t.rail q) → RailStep q (s.record q) (s.requestOf q) (s.rail q) (t.rail q)) :
      RailStep r (s.record r) (s.requestOf r) (s.rail r) (t.rail r) := by
    by_cases hq : q = r
    · exact hq ▸ hstep hq hb.self
    · exact other hb fun h => hq h.symm
  cases h.railMove with
  | same hsame => exact .aims (by rw [hsame]; exact .refl _)
  | target q hb =>
    refine own hb fun _ hy => .aims ?_
    unfold SameButHolds at hy
    rw [hy]
    rfl
  | wait q hs ht hb => exact own hb fun _ => .wait hs ht
  | unwait q hs ht hb => exact own hb fun _ => .unwait hs ht
  | drain q c hs hb => exact own hb fun _ => .drain c hs
  | slewDown q hs ht hl hb => exact own hb fun _ => .slewDown hs ht hl
  | drained q hs hf _ hb => exact own hb fun _ => .drained hs hf
  | start q n hreq _ hb => exact own hb fun _ => .start n hreq ((s.requestOf_eq_start_iff q n).mp hreq).2 (State.waiting_of_start hreq)
  | backfeed q n hreq hm hpg hb => exact own hb fun _ => .backfeed n hreq hm hpg (State.waiting_of_start hreq)
  | raise q n hreq _ hb =>
    exact own hb fun _ => .raise n hreq ((s.requestOf_eq_raise_iff q n).mp hreq).2.2 (State.on_of_raise hreq) ((s.requestOf_eq_raise_iff q n).mp hreq).2.1
  | wholeFall q level hs ht hb => exact own hb fun _ => .wholeFall level hs ht

/-- A property of one rail's record that no move breaks. -/
theorem Moves.keepRail {r : Rail} {rec : RailRecord} {P : RailRuntime → Prop}
    (hP : ∀ asks x y, RailStep r rec asks x y → P x → P y) {s t : State} (h : Moves s t) (hrec : s.record r = rec)
    (hs : P (s.rail r)) : P (t.rail r) := by
  have hboth : P (t.rail r) ∧ t.record r = rec := by
    induction h with
    | refl => exact ⟨hs, hrec⟩
    | tail _ hmove ih =>
      obtain ⟨hx, hrec'⟩ := ih
      exact ⟨hP _ _ _ (hrec' ▸ hmove.railStep r) hx, (hmove.onlyRails.record r).trans hrec'⟩
  exact hboth.1

/-- A record that no move of an event touches but for its target and its holds: in FAULT, or in a drain that has not finished. -/
def RailRuntime.Frozen (x : RailRuntime) : Prop := x.state = .fault ∨ (x.state = .draining ∧ x.drainFinished = false)

theorem RailStep.of_frozen {r : Rail} {rec : RailRecord} {asks : Option (GrantKind × Nat)} {x y : RailRuntime}
    (h : RailStep r rec asks x y) (hx : x.Frozen) :
    OnlyAims x y := by
  have hstate : x.state = .fault ∨ x.state = .draining := hx.imp id And.left
  cases h with
  | aims h => exact h
  | wait hs => simp [hs] at hstate
  | unwait hs => simp [hs] at hstate
  | drain c hs => rcases hstate with h | h <;> simp [h, RailState.running] at hs
  | slewDown hs => simp [hs] at hstate
  | drained hs hf =>
    rcases hx with hx | ⟨-, hx⟩
    · simp [hs] at hx
    · simp [hf] at hx
  | start n _ _ hs => simp [hs] at hstate
  | backfeed n _ _ _ hs => simp [hs] at hstate
  | raise n _ _ hs => simp [hs] at hstate
  | wholeFall level hs => simp [hs] at hstate

theorem Moves.onlyAims_of_frozen {s t : State} (h : Moves s t) {r : Rail} (hr : (s.rail r).Frozen) :
    OnlyAims (s.rail r) (t.rail r) := by
  refine h.keepRail (P := OnlyAims (s.rail r)) (fun _ x y hstep hx => hx.trans (hstep.of_frozen ?_)) rfl (.refl _)
  unfold RailRuntime.Frozen
  rw [hx.state, hx.drainFinished]
  exact hr

end Sys2Proof.Machine
end

/-! ### The entry to COLLAPSE (R87, R123) -/

section
namespace Sys2Proof.Machine

/-- The supply monitor is in COLLAPSE and no rail runs. -/
structure Collapsed (s : State) : Prop where
  supply : s.supply.state = .collapse
  running : ∀ r : Rail, (s.rail r).state.running = false

theorem Collapsed.requestOf {s : State} (h : Collapsed s) (r : Rail) : s.requestOf r = none := by
  cases hreq : s.requestOf r with
  | none => rfl
  | some a =>
    obtain ⟨k, n⟩ := a
    cases k with
    | start => exact absurd h.supply ((s.ready_iff r).mp ((s.requestOf_eq_start_iff r n).mp hreq).1).2.2
    | raise =>
      have hrun := h.running r
      rw [State.on_of_raise hreq] at hrun
      cases hrun

theorem RailStep.running_eq_false {r : Rail} {rec : RailRecord} {asks : Option (GrantKind × Nat)} {x y : RailRuntime}
    (h : RailStep r rec asks x y)   (hx : x.state.running = false) (hasks : asks = none) : y.state.running = false := by
  cases h with
  | aims h => rw [h.state, hx]
  | wait _ _ h => rw [h]; rfl
  | unwait _ _ h => rw [h]; rfl
  | drain c hs => rw [hx] at hs; cases hs
  | slewDown hs => rw [hs] at hx; cases hx
  | drained _ _ h =>
    rw [h]
    change (if x.target = 0 then RailState.off else RailState.waiting).running = false
    split <;> rfl
  | start n ha => exact nomatch hasks.symm.trans ha
  | backfeed n ha => exact nomatch hasks.symm.trans ha
  | raise n _ _ hs => rw [hs] at hx; cases hx
  | wholeFall level hs => rw [hs] at hx; cases hx

theorem Collapsed.move {s t : State} (hm : Move s t) (h : Collapsed s) : Collapsed t :=
  ⟨hm.onlyRails.supply ▸ h.supply, fun r => (hm.railStep r).running_eq_false (h.running r) (h.requestOf r)⟩

theorem placeRequests_of_none {s : State} (h : ∀ r, s.newRequest r = none) : s.placeRequests = s :=
  List.foldlRecOn (motive := fun x => x = s) allRails State.placeRequest rfl fun b hb r _ => by
    rw [hb]
    unfold State.placeRequest
    rw [h]

/-- A state that asks nothing of the arbiter and whose queue is empty ends the grant rule. -/
theorem grantRound_of_quiet {before s : State} (h : ∀ r, s.requestOf r = none) (log : List Announcement) :
    grantRound before ⟨s, log⟩ = (⟨{ s with budgetQueue := [] }, log⟩, false) := by
  have hreconcile : s.reconcile = { s with budgetQueue := [] } := by
    rw [s.reconcile_eq]
    have hnil : s.budgetQueue.filterMap s.revised = [] := List.filterMap_eq_nil_iff.mpr fun q _ => by
      unfold State.revised
      rw [h]
    rw [hnil]
  have hnew (r : Rail) : ({ s with budgetQueue := [] } : State).newRequest r = none := by
    unfold State.newRequest
    split
    · rfl
    · exact h r
  have hzero : ({ s with budgetQueue := [] } : State).zeroRequest = none :=
    List.findSome?_eq_none_iff.mpr fun r _ => by rw [hnew]
  have hplace : ({ s with budgetQueue := [] } : State).placeRequests = { s with budgetQueue := [] } :=
    placeRequests_of_none hnew
  unfold grantRound
  dsimp only
  rw [hreconcile, hzero]
  dsimp only
  rw [hplace]

theorem arbitrate_of_quiet {before s : State} (h : ∀ r, s.requestOf r = none) (n : Nat) (log : List Announcement) :
    arbitrate before (n + 1) ⟨s, log⟩ = ⟨{ s with budgetQueue := [] }, log⟩ := by
  unfold arbitrate repeatRounds
  rw [grantRound_of_quiet h]

/-- Settles O42. -/
theorem collapseDrainsEveryRunningRail : Obligations.CollapseDrainsEveryRunningRail := by
  intro s t v w u hcross hnot hexec
  have hexec' := exec_of_crosses rfl hcross
  have hafter : supplyAfter (.fallBelowCrit v) s.supply.state = .collapse := rfl
  rw [hafter, if_neg fun h => hnot h.symm, hexec] at hexec'
  obtain rfl := Host.Outcome.next.inj hexec'
  have hreaction := reaction_changeSupply .collapse (s.crossed v w u)
  have hrails (r : Rail) : SameButHolds (({ s.rail r with suspended := s.flagAfter s.supply.state .collapse r } :
      RailRuntime).drainedIfRunning r (s.record r) .collapse) ((supplyFound .collapse (s.crossed v w u)).rail r) := by
    have h := rail_drainRunning ((s.crossed v w u).supplied ((s.crossed v w u).supply.entering s.part .collapse)) .collapse r
    rw [State.rail_supplied] at h
    exact h
  rw [changeSupply_eq_railTurn] at hreaction ⊢
  have hsupply : (supplyFound .collapse (s.crossed v w u)).supply.state = .collapse := by
    rw [(onlyRails_supplyFound .collapse (s.crossed v w u)).supply]
    rfl
  generalize supplyFound .collapse (s.crossed v w u) = m at hreaction hrails hsupply
  have hcollapsed : Collapsed m := ⟨hsupply, fun r => by
    rw [hrails r]
    unfold RailRuntime.drainedIfRunning
    split
    · rfl
    · next h => exact Bool.eq_false_iff.mpr h⟩
  have hend : Collapsed (railEvent ⟨m, []⟩).st :=
    (moves_railEvent ⟨m, []⟩).keep (fun _ _ hm h => h.move hm) hcollapsed
  have hgranted : ((railEvent ⟨m, []⟩).granted m).st = { (railEvent ⟨m, []⟩).st with budgetQueue := [] } :=
    congrArg Event.st (arbitrate_of_quiet hend.requestOf 39 [])
  refine ⟨?_, ?_, fun r hrun => ?_⟩
  · rw [hreaction.rest]
    rfl
  · have h := conclude_beside none (supplyChanged .collapse (s.crossed v w u)).log m (railEvent ⟨m, []⟩)
    unfold railTurn
    rw [h, hgranted]
  · have hr : SameButHolds (({ s.rail r with suspended := s.flagAfter s.supply.state .collapse r } :
        RailRuntime).toDraining r (s.record r) .collapse) (m.rail r) := by
      have h := hrails r
      unfold RailRuntime.drainedIfRunning at h
      rwa [if_pos hrun] at h
    have hfrozen : (m.rail r).Frozen := by
      rw [hr]
      exact .inr ⟨rfl, rfl⟩
    have haims := ((moves_railEvent ⟨m, []⟩).trans (moves_granted m _)).onlyAims_of_frozen hfrozen
    have hrail : (railTurn none (supplyChanged .collapse (s.crossed v w u)).log ⟨m, []⟩).rail r =
        ((railEvent ⟨m, []⟩).granted m).st.rail r := rail_conclude ..
    rw [hrail, haims, hr]
    exact ⟨rfl, rfl, rfl, rfl, rfl, rfl⟩

end Sys2Proof.Machine
end

/-! ### COMMIT accepted (R172) -/

section
namespace Sys2Proof.Machine

/-- The record of a rail that an accepted COMMIT leaves. -/
def State.committedRail (s : State) (v : Nat) (r : Rail) : RailRuntime :=
  { RailRuntime.powerOn with
    pg := (s.rail r).pg
    suspended := decide (s.part.evaluated v = .low ∧ (s.record r).defined = true ∧ (s.record r).shedClass = .shed) }

/-- The part that an accepted COMMIT leaves, ahead of its announcement. -/
def State.committedAt (s : State) (v : Nat) : State :=
  { s with
    lifecycle := .committed, allocated := 0, budgetQueue := []
    rails := Vector.ofFn (s.committedRail v), supply := s.part.supplyAt v
    limit := s.part.limitIn (s.part.evaluated v), sense := v }

theorem evaluateSupply_activated (v : Nat) (s : State) : evaluateSupply v s.activated = s.committedAt v := by
  have hrails : (evaluateSupply v s.activated).rails = Vector.ofFn (s.committedRail v) := vector_eq_of_get fun r => by
    have hpart : s.activated.part = s.part := (onlyRails_activated s).part
    have hrecord : s.activated.record r = s.record r := (onlyRails_activated s).record r
    have hrail := rail_evaluateSupply v s.activated r
    unfold State.flagEvaluated at hrail
    rw [rail_activated, hpart, hrecord] at hrail
    refine hrail.trans ((get_ofFn (s.committedRail v) r).symm ▸ ?_)
    unfold State.committedRail RailRuntime.activated
    split
    · next h => rw [decide_eq_true h]
    · next h =>
      rw [decide_eq_false h]
      rfl
  rw [committed_rest, hrails]
  rfl

/-- The sessions hear of the supply state that COMMIT finds, where it is not NORMAL. -/
def State.commitLog (s : State) (v : Nat) : List Announcement :=
  if s.part.evaluated v = .normal then [] else [.supplyChanged (s.part.evaluated v)]

theorem commitTaken_deliver (v : Nat) (s : State) :
    commitTaken v s = deliver none (s.commitLog v) (s.committedAt v) := by
  rw [commitTaken_eq, evaluateSupply_activated]
  change (if s.part.evaluated v = .normal then _ else deliver none [.supplyChanged (s.part.evaluated v)] _) = _
  unfold State.commitLog
  split
  · rfl
  · rfl

theorem commitTaken_beside (v : Nat) (s : State) :
    commitTaken v s = { s.committedAt v with sessions := (commitTaken v s).sessions } := by
  rw [commitTaken_deliver]
  exact (heard_deliver ..).rest

theorem Session.takes_supplyChanged (s : State) (reserve : Option Link) (l : Link) (x : Session) (st : SupplyState) :
    Session.takes s reserve l x (.supplyChanged st) =
      if x.state = .attached ∧ x.mask.supplyChange = true then
        x.offered (reservedFor reserve l) ⟨.supplyChange, none, none, 0, .supply st, s.timestamp⟩
      else x := by
  have hquiet := Session.settledBy_of_quiet s (a := .supplyChanged st) (fun w _ => by cases w <;> rfl) x
  unfold Session.takes State.noticeFrom
  rw [hquiet]
  dsimp only
  by_cases hattached : x.state = .attached
  · by_cases hmask : x.mask.supplyChange = true
    · rw [if_pos hattached, if_pos hmask, if_pos ⟨hattached, hmask⟩]
    · rw [if_pos hattached, if_neg hmask, if_neg fun h => hmask h.2]
  · rw [if_neg hattached, if_neg fun h => hattached h.1]

theorem session_commitTaken (v : Nat) (s : State) (m : Link) :
    (commitTaken v s).session m =
      if s.part.evaluated v ≠ .normal ∧ (s.session m).state = .attached ∧ (s.session m).mask.supplyChange = true then
        (s.session m).offered 0 ⟨.supplyChange, none, none, 0, .supply (s.part.evaluated v), s.timestamp⟩
      else s.session m := by
  have hsame : (s.committedAt v).session m = s.session m := rfl
  rw [commitTaken_deliver, session_deliver, hsame]
  unfold State.commitLog
  by_cases hnormal : s.part.evaluated v = .normal
  · rw [if_pos hnormal, if_neg fun h => h.1 hnormal]
    rfl
  · rw [if_neg hnormal, List.foldl_cons, List.foldl_nil]
    rw [Session.takes_supplyChanged]
    by_cases hboth : (s.session m).state = .attached ∧ (s.session m).mask.supplyChange = true
    · rw [if_pos hboth, if_pos ⟨hnormal, hboth.1, hboth.2⟩]
      rfl
    · rw [if_neg hboth, if_neg fun h => hboth h.2]

theorem commitAnswer_of_none (v : Nat) {s : State} (h : commitFault s = none) :
    commitAnswer v s = ⟨commitTaken v s, .ok, [(s.part.evaluated v).code]⟩ := by
  have hreported : (commitTaken v s).reportedSupply = s.part.evaluated v := by
    rw [commitTaken_beside]
    rfl
  unfold commitAnswer
  rw [h]
  dsimp only
  rw [hreported]

/-- Settles O48. -/
theorem acceptedCommitActivatesThePart : Obligations.AcceptedCommitActivatesThePart := by
  intro l f v s hp hnone
  have hpasses : Passes { s with sense := v } .commit l f := ⟨hp.receiver, hp.frame, hp.session, hp.lifecycle⟩
  let a : State := State.leased { s with sense := v } l
  have hnone' : commitFault a = none := (commitFault_of_table_eq (s := s) rfl rfl).trans hnone
  have hserve := hpasses.serve_eq nofun nofun (commitAnswer v)
  change _ = ((commitAnswer v a).st.respond l f.tag (commitAnswer v a).status (commitAnswer v a).data) at hserve
  rw [commitAnswer_of_none v hnone'] at hserve
  have hbeside := commitTaken_beside v a
  have hsession := session_commitTaken v a
  generalize commitTaken v a = t at hserve hbeside hsession
  refine ⟨t.respond l f.tag .ok [(s.part.evaluated v).code], congrArg Host.Outcome.next hserve, ?_, ?_, fun m => ?_⟩
  · change t.links.set l.val _ l.isLt = _
    have hlinks : t.links = s.links := by
      rw [hbeside]
      rfl
    rw [hlinks, State.link, hlinks]
    rfl
  · dsimp only
    generalize hfound : (if v < 2400 + s.part.critCode.toNat * 50 then SupplyState.collapse
      else if v < 2400 + s.part.warnCode.toNat * 50 then .low else .normal) = found
    replace hfound : s.part.evaluated v = found := hfound
    have hcommitted : a.committedAt v =
        { a with
          lifecycle := .committed, allocated := 0, budgetQueue := []
          rails := Vector.ofFn fun r =>
            { RailRuntime.powerOn with
              pg := (s.rail r).pg
              suspended := decide (found = .low ∧ (s.record r).defined = true ∧ (s.record r).shedClass = .shed) }
          supply := ⟨true, found, if v < s.part.warn then .below else .above, if v < s.part.crit then .below else .above,
            .stopped⟩
          limit := s.part.limitIn found, sense := v } := by
      rw [← hfound]
      rfl
    rw [hcommitted] at hbeside
    rw [hbeside]
    cases found <;> rfl
  · have hm := hsession m
    have hleased : a.session m =
        if m = l then { s.session m with leaseTimer := .running ((s.session m).leaseLength.toNat * 100) } else s.session m := by
      by_cases hml : m = l
      · rw [hml, if_pos rfl]
        exact (session_leased { s with sense := v } l l).trans (if_pos rfl)
      · rw [if_neg hml]
        exact (session_leased { s with sense := v } l m).trans (if_neg hml)
    rw [hleased] at hm
    refine hm.trans ?_
    have hkept : (if m = l then { s.session m with leaseTimer := .running ((s.session m).leaseLength.toNat * 100) }
          else s.session m : Session) =
        { s.session m with
          leaseTimer := if m = l then .running ((s.session m).leaseLength.toNat * 100) else (s.session m).leaseTimer } := by
      split
      · rfl
      · rfl
    have hpart : a.part = s.part := rfl
    dsimp only
    change _ = if s.part.evaluated v ≠ .normal ∧ _ then _ else _
    rw [hkept, hpart]
    split
    · unfold Session.offered
      rfl
    · rfl

end Sys2Proof.Machine
end

/-! ### The hold sets and the queue along the moves of an event (R56 to R58, R79, R82) -/

section
namespace Sys2Proof.Machine

/-- From `s` to `t`, a hold is written as the state of the child asks, or stays with a child whose state stays. -/
def HoldsFollow (s t : State) : Prop := ∀ p c : Rail,
  (p ∈ s.parentsOf c ∧ (t.rail p).holdSet.get c = (t.rail c).state.holding)
    ∨ ((t.rail p).holdSet.get c = (s.rail p).holdSet.get c ∧ ((t.rail c).state = (s.rail c).state ∨ p ∉ s.parentsOf c))

theorem HoldsFollow.of_same {s t : State} (hstate : ∀ q, (t.rail q).state = (s.rail q).state)
    (hhold : ∀ q, (t.rail q).holdSet = (s.rail q).holdSet) : HoldsFollow s t := fun p c =>
  .inr ⟨by rw [hhold], .inl (hstate c)⟩

theorem HoldsFollow.refl (s : State) : HoldsFollow s s := .of_same (fun _ => rfl) fun _ => rfl

theorem HoldsFollow.trans {s t u : State} (h : HoldsFollow s t) (ht : OnlyRails s t) (h' : HoldsFollow t u) :
    HoldsFollow s u := fun p c => by
  have hparents : t.parentsOf c = s.parentsOf c := ht.parentsOf c
  have h' := h' p c
  rw [hparents] at h'
  rcases h' with h' | ⟨hhold, hstate⟩
  · exact .inl h'
  · rcases h p c with ⟨hp, hheld⟩ | ⟨hheld, hsame⟩
    · rcases hstate with hstate | hnot
      · exact .inl ⟨hp, by rw [hhold, hheld, hstate]⟩
      · exact absurd hp hnot
    · refine .inr ⟨hhold.trans hheld, ?_⟩
      rcases hstate with hstate | hnot
      · exact hsame.imp_left hstate.trans
      · exact .inr hnot

theorem holdsFollow_modRail (s : State) (r : Rail) {f : RailRuntime → RailRuntime} (hstate : (f (s.rail r)).state = (s.rail r).state)
    (hhold : (f (s.rail r)).holdSet = (s.rail r).holdSet) : HoldsFollow s (s.modRail r f) := by
  refine .of_same (fun q => ?_) fun q => ?_
  · rw [State.rail_modRail]
    split
    · next hq => rw [hq]; exact hstate
    · rfl
  · rw [State.rail_modRail]
    split
    · next hq => rw [hq]; exact hhold
    · rfl

theorem holdsFollow_moveRail (s : State) (r : Rail) {f : RailRuntime → RailRuntime}
    (hf : (f (s.rail r)).holdSet = (s.rail r).holdSet) : HoldsFollow s (s.moveRail r f) := fun p c => by
  have hstate : ((s.moveRail r f).rail c).state = if c = r then (f (s.rail r)).state else (s.rail c).state := by
    rw [becomes_moveRail s r f c]
    dsimp only
    split <;> rfl
  have hhold : ((s.moveRail r f).rail p).holdSet =
      if p ∈ s.parentsOf r then (s.rail p).holdSet.set r.val (f (s.rail r)).state.holding r.isLt
      else (s.rail p).holdSet := by
    have hrec : (if p = r then driveLines r (f (s.rail r)) else s.rail p).holdSet = (s.rail p).holdSet := by
      split
      · next hp => rw [hp]; exact hf
      · rfl
    rw [State.rail_moveRail]
    dsimp only
    split
    · rw [← hrec]
    · exact hrec
  rw [hstate, hhold]
  by_cases hc : c = r
  · subst hc
    by_cases hp : p ∈ s.parentsOf c
    · rw [if_pos hp, if_pos rfl]
      exact .inl ⟨hp, (get_set ..).trans (if_pos rfl)⟩
    · rw [if_neg hp]
      exact .inr ⟨rfl, .inr hp⟩
  · rw [if_neg hc]
    refine .inr ⟨?_, .inl rfl⟩
    split
    · exact (get_set ..).trans (if_neg hc)
    · rfl

section
variable (s : State) (r : Rail)

theorem holdsFollow_withdraw_moveRail {f : RailRuntime → RailRuntime} (hf : (f (s.rail r)).holdSet = (s.rail r).holdSet) :
    HoldsFollow s ((s.withdraw r).moveRail r f) := holdsFollow_moveRail (s.withdraw r) r hf

theorem holdsFollow_giveBack_moveRail (n : Nat) {f : RailRuntime → RailRuntime} (hf : ∀ x, (f x).holdSet = x.holdSet) :
    HoldsFollow s ((s.giveBack r n).moveRail r f) := by
  have hgive : HoldsFollow s (s.giveBack r n) :=
    holdsFollow_modRail s r (f := fun x => { x with held := min x.held n }) rfl rfl
  exact hgive.trans (onlyRails_giveBack s r n) (holdsFollow_moveRail _ r (hf _))

theorem holdsFollow_enterDraining (c : DrainCause) : HoldsFollow s (s.enterDraining r c) := by
  unfold State.enterDraining
  dsimp only
  split
  · exact holdsFollow_giveBack_moveRail (s.withdraw r) r _ fun _ => rfl
  · exact holdsFollow_moveRail (s.withdraw r) r rfl

theorem holdsFollow_enterFault (k : FaultKind) : HoldsFollow s (s.enterFault r k) :=
  holdsFollow_giveBack_moveRail (s.withdraw r) r 0 fun _ => rfl

theorem holdsFollow_takeBudget (n : Nat) : HoldsFollow s (s.takeBudget r n) :=
  holdsFollow_modRail s r (f := fun x => { x with held := x.held + n }) rfl rfl

end

theorem Move.holdsFollow {s t : State} (h : Move s t) : HoldsFollow s t := by
  cases h with
  | target r => exact holdsFollow_modRail s r rfl rfl
  | wait r _ _ => exact holdsFollow_moveRail s r rfl
  | unwait r _ _ => exact holdsFollow_withdraw_moveRail s r rfl
  | drain r c _ => exact holdsFollow_enterDraining s r c
  | slewDown r _ _ _ => exact holdsFollow_withdraw_moveRail s r rfl
  | drained r _ _ _ => exact holdsFollow_giveBack_moveRail s r 0 fun _ => rfl
  | start r n _ _ => exact (holdsFollow_takeBudget s r n).trans (onlyRails_takeBudget s r n) (holdsFollow_moveRail _ r rfl)
  | backfeed r n _ _ _ _ =>
    exact (holdsFollow_takeBudget s r n).trans (onlyRails_takeBudget s r n) (holdsFollow_enterFault _ r _)
  | raise r n _ _ =>
    exact (holdsFollow_takeBudget s r n).trans (onlyRails_takeBudget s r n) (holdsFollow_withdraw_moveRail _ r rfl)
  | wholeFall r level _ _ =>
    exact (holdsFollow_moveRail s r rfl).trans (onlyRails_callBackSlew s r level) (holdsFollow_enterDraining _ r .normal)
  | reconcile => exact .of_same (fun _ => rfl) fun _ => rfl
  | place r => exact .of_same (fun q => by rw [s.rail_placeRequest]) fun q => by rw [s.rail_placeRequest]
  | pop => exact .of_same (fun _ => rfl) fun _ => rfl

theorem Moves.holdsFollow {s t : State} (h : Moves s t) : HoldsFollow s t := by
  have hboth : HoldsFollow s t ∧ OnlyRails s t := by
    induction h with
    | refl => exact ⟨.refl s, .refl s⟩
    | tail _ hmove ih => exact ⟨ih.1.trans ih.2 hmove.holdsFollow, ih.2.trans hmove.onlyRails⟩
  exact hboth.1

/-- The holds of a rail whose state stays are what they were. -/
theorem HoldsFollow.of_state_eq {s t : State} (h : HoldsFollow s t) {p c : Rail}
    (hs : (s.rail p).holdSet.get c = (s.rail c).state.holding) (hstate : (t.rail c).state = (s.rail c).state) :
    (t.rail p).holdSet.get c = (t.rail c).state.holding := by
  rcases h p c with ⟨-, h⟩ | ⟨h, -⟩
  · exact h
  · rw [h, hs, hstate]

/-- An entry that a move finds or leaves in the queue was there before or is asked for. -/
theorem Move.queue {s t : State} (h : Move s t) {q : QueueEntry} (hq : q ∈ t.budgetQueue) :
    s.queued q.rail = true ∨ s.requestOf q.rail ≠ none := by
  have old (h : q ∈ s.budgetQueue) : s.queued q.rail = true ∨ s.requestOf q.rail ≠ none :=
    .inl (List.any_eq_true.mpr ⟨q, h, beq_self_eq_true q.rail⟩)
  have drained (r : Rail) (c : DrainCause) {u : State} (hu : u.budgetQueue = s.budgetQueue)
      (h : q ∈ (u.enterDraining r c).budgetQueue) : q ∈ s.budgetQueue := by
    unfold State.enterDraining at h
    rw [← hu]
    dsimp only at h
    split at h
    · rw [moveRail_budgetQueue, giveBack_budgetQueue] at h
      exact ((u.mem_withdraw r q).mp h).1
    · rw [moveRail_budgetQueue] at h
      exact ((u.mem_withdraw r q).mp h).1
  cases h with
  | target r => exact old hq
  | wait r _ _ =>
    rw [State.enterWaiting, moveRail_budgetQueue] at hq
    exact old hq
  | unwait r _ _ =>
    rw [State.leaveWaiting, moveRail_budgetQueue] at hq
    exact old ((s.mem_withdraw r q).mp hq).1
  | drain r c _ => exact old (drained r c rfl hq)
  | slewDown r _ _ _ =>
    rw [State.enterSlewing, moveRail_budgetQueue] at hq
    exact old ((s.mem_withdraw r q).mp hq).1
  | drained r _ _ _ =>
    rw [State.finishDrain, moveRail_budgetQueue] at hq
    exact old hq
  | start r n _ _ =>
    rw [State.enterRamping, moveRail_budgetQueue] at hq
    exact old hq
  | backfeed r n _ _ _ _ =>
    rw [State.enterFault, moveRail_budgetQueue, giveBack_budgetQueue] at hq
    exact old (((s.takeBudget r n).mem_withdraw r q).mp hq).1
  | raise r n _ _ =>
    rw [State.enterSlewing, moveRail_budgetQueue] at hq
    exact old (((s.takeBudget r n).mem_withdraw r q).mp hq).1
  | wholeFall r level _ _ =>
    refine old (drained r .normal ?_ hq)
    rw [State.callBackSlew, moveRail_budgetQueue]
  | reconcile =>
    right
    rw [s.mem_reconcile q hq]
    nofun
  | place r =>
    unfold State.placeRequest at hq
    split at hq
    · next k n hnew =>
      rcases (mem_placeEntry _ q _).mp hq with rfl | hq
      · right
        rw [State.requestOf_of_newRequest hnew]
        nofun
      · exact old hq
    · exact old hq
  | pop x rest hqueue => exact old (hqueue ▸ List.mem_cons_of_mem x hq)

theorem RailRuntime.Frozen.requestOf {s : State} {r : Rail} (h : (s.rail r).Frozen) : s.requestOf r = none := by
  cases hreq : s.requestOf r with
  | none => rfl
  | some a =>
    obtain ⟨k, n⟩ := a
    have hstate : (s.rail r).state = .waiting ∨ (s.rail r).state = .on := by
      cases k with
      | start => exact .inl (State.waiting_of_start hreq)
      | raise => exact .inr (State.on_of_raise hreq)
    rcases h with h | ⟨h, -⟩ <;> simp [h] at hstate

/-- A rail in FAULT or in an unfinished drain, without an entry in the queue, gets none. -/
theorem Moves.queued_of_frozen {s t : State} (h : Moves s t) {r : Rail} (hr : (s.rail r).Frozen)
    (hqueued : s.queued r = false) : t.queued r = false := by
  have hboth : (t.rail r).Frozen ∧ t.queued r = false := by
    refine h.keep (I := fun u => (u.rail r).Frozen ∧ u.queued r = false) (fun a b hmove hab => ?_) ⟨hr, hqueued⟩
    obtain ⟨hfrozen, hnot⟩ := hab
    have haims := (hmove.railStep r).of_frozen hfrozen
    refine ⟨?_, Bool.eq_false_iff.mpr fun hany => ?_⟩
    · unfold RailRuntime.Frozen
      rw [haims.state, haims.drainFinished]
      exact hfrozen
    · obtain ⟨q, hq, hrail⟩ := List.any_eq_true.mp hany
      obtain rfl : q.rail = r := beq_iff_eq.mp hrail
      rcases hmove.queue hq with h | h
      · rw [hnot] at h
        cases h
      · exact h hfrozen.requestOf
  exact hboth.2

end Sys2Proof.Machine
end

/-! ### Rooms and completions as announcements are taken (R145 to R150) -/

section
namespace Sys2Proof.Machine

theorem countP_add_one {α : Type} [DecidableEq α] {p q : α → Bool} {a : α} (hpa : p a = true) (hqa : q a = false)
    (h : ∀ b, b ≠ a → q b = p b) {xs : List α} (hn : xs.Nodup) (ha : a ∈ xs) : xs.countP q + 1 = xs.countP p := by
  induction xs with
  | nil => exact absurd ha List.not_mem_nil
  | cons x xs ih =>
    obtain ⟨hx, hn⟩ := List.nodup_cons.mp hn
    rcases List.mem_cons.mp ha with rfl | ha
    · have hrest : xs.countP q = xs.countP p := List.countP_congr fun b hb => by rw [h b fun hba => hx (hba ▸ hb)]
      rw [List.countP_cons_of_pos hpa, List.countP_cons_of_neg (by rw [hqa]; exact Bool.false_ne_true), hrest]
    · have hxa : x ≠ a := fun hxa => hx (hxa ▸ ha)
      rw [List.countP_cons, List.countP_cons, h x hxa, ← ih hn ha]
      omega

/-- A completion set up takes a slot of the table that was free, and one taken out leaves one free (R145). -/
theorem Session.outstandingCount_set {x : Session} {r : Rail} (o : Outstanding) (h : x.table.get r = none) :
    ({ x with table := x.table.set r.val (some o) r.isLt } : Session).outstandingCount = x.outstandingCount + 1 := by
  refine (countP_add_one (a := r) ?_ ?_ (fun b hb => ?_) nodup_allRails (mem_allRails r)).symm
  · rw [get_set, if_pos rfl]
    rfl
  · rw [h]
    rfl
  · rw [get_set, if_neg hb]

theorem Session.outstandingCount_clear {x : Session} {r : Rail} (h : (x.table.get r).isSome = true) :
    ({ x with table := x.table.set r.val none r.isLt } : Session).outstandingCount + 1 = x.outstandingCount := by
  refine countP_add_one (a := r) h ?_ (fun b hb => ?_) nodup_allRails (mem_allRails r)
  · rw [get_set, if_pos rfl]
    rfl
  · rw [get_set, if_neg hb]

/-- A completion that resolves leaves the table for the queue: the room used stays (R149). -/
theorem Session.roomUsed_resolved (x : Session) (r : Rail) (code : EventCode) (level : Nat) (d : Detail) (now : BitVec 16) :
    (x.resolved r code level d now).roomUsed = x.roomUsed := by
  unfold Session.resolved
  split
  · next o ho =>
    have hcount := Session.outstandingCount_clear (x := x) (r := r) (by rw [ho]; rfl)
    change ((x.queue ++ [_]).length + ({ x with table := x.table.set r.val none r.isLt } : Session).outstandingCount) = _
    unfold Session.roomUsed
    rw [List.length_append, List.length_singleton]
    omega
  · rfl

theorem Session.roomUsed_offered (x : Session) (n : Nat) (e : EventRecord) :
    (x.offered n e).roomUsed = if x.roomUsed + n < 24 then x.roomUsed + 1 else x.roomUsed := by
  unfold Session.offered
  by_cases h : x.roomUsed + n < 24
  · rw [if_pos h]
    change (if _ then _ else _ : Session).roomUsed = _
    rw [if_pos (show x.roomUsed + n < Config.sessionRoom from h)]
    change (x.queue ++ [e]).length + x.outstandingCount = x.queue.length + x.outstandingCount + 1
    rw [List.length_append, List.length_singleton]
    omega
  · rw [if_neg h, if_neg (show ¬ x.roomUsed + n < Config.sessionRoom from h)]
    rfl

theorem reservedFor_none (l : Link) : reservedFor none l = 0 := if_neg nofun

section
variable (s : State) (reserve : Option Link) (l : Link)

theorem Session.roomUsed_settledBy (x : Session) (a : Announcement) : (x.settledBy s a).roomUsed = x.roomUsed := by
  unfold Session.settledBy
  split
  · exact Session.roomUsed_resolved ..
  · rfl

theorem Session.roomUsed_le_takes (x : Session) (a : Announcement) :
    x.roomUsed ≤ (Session.takes s reserve l x a).roomUsed := by
  unfold Session.takes
  split
  · split
    · rw [Session.roomUsed_offered, Session.roomUsed_settledBy]
      split <;> omega
    · exact Nat.le_of_eq (Session.roomUsed_settledBy ..).symm
  · exact Nat.le_refl _

theorem Session.roomUsed_le_foldl_takes (log : List Announcement) (x : Session) :
    x.roomUsed ≤ (log.foldl (Session.takes s reserve l) x).roomUsed := by
  induction log generalizing x with
  | nil => exact Nat.le_refl _
  | cons a log ih => exact Nat.le_trans (Session.roomUsed_le_takes s reserve l x a) (ih _)

theorem Session.table_offered (x : Session) (n : Nat) (e : EventRecord) : (x.offered n e).table = x.table := by
  unfold Session.offered
  split <;> rfl

/-- The rail whose completion an announcement resolves, if any. -/
def State.resolves (s : State) (x : Session) (a : Announcement) : Option Rail := (s.resolutionFor x a).map Prod.fst

/-- What one announcement makes of a completion: resolved, or left. -/
theorem Session.table_takes (x : Session) (a : Announcement) (r : Rail) :
    (Session.takes s reserve l x a).table.get r =
      if x.state = .attached ∧ s.resolves x a = some r then none else x.table.get r := by
  have hsettled : (x.settledBy s a).table.get r = if s.resolves x a = some r then none else x.table.get r := by
    unfold Session.settledBy State.resolves
    cases hres : s.resolutionFor x a with
    | none => exact (if_neg nofun).symm
    | some p =>
      obtain ⟨q, code, level, d⟩ := p
      dsimp only [Option.map_some]
      by_cases hq : r = q
      · subst hq
        rw [if_pos rfl]
        unfold Session.resolved
        split
        · exact (get_set ..).trans (if_pos rfl)
        · next hnone => exact hnone
      · rw [if_neg fun h => hq (Option.some.inj h).symm]
        unfold Session.resolved
        split
        · exact (get_set ..).trans (if_neg hq)
        · rfl
  unfold Session.takes
  by_cases hattached : x.state = .attached
  · rw [if_pos hattached]
    have hif : (if x.state = .attached ∧ s.resolves x a = some r then none else x.table.get r) =
        if s.resolves x a = some r then none else x.table.get r := by
      simp only [hattached, true_and]
    rw [hif, ← hsettled]
    split
    · rw [Session.table_offered]
    · rfl
  · rw [if_neg hattached, if_neg fun h => hattached h.1]

theorem Session.foldl_takes_table_none (log : List Announcement) {x : Session} {r : Rail} (h : x.table.get r = none) :
    (log.foldl (Session.takes s reserve l) x).table.get r = none := by
  induction log generalizing x with
  | nil => exact h
  | cons a log ih =>
    refine ih ?_
    rw [Session.table_takes, h]
    split <;> rfl

/-- A notice among the announcements is in the queue at the end, or the room was used up. -/
theorem Session.mem_foldl_takes {log : List Announcement} {a : Announcement} (ha : a ∈ log) {x : Session}
    (hx : x.state = .attached) {e : EventRecord} (he : s.noticeFrom l x.mask a = some e) :
    e ∈ (log.foldl (Session.takes s reserve l) x).queue
      ∨ 24 ≤ (log.foldl (Session.takes s reserve l) x).roomUsed + reservedFor reserve l := by
  induction log generalizing x with
  | nil => exact absurd ha List.not_mem_nil
  | cons b log ih =>
    obtain ⟨hstate, hmask⟩ := Session.takes_kept s reserve l x b
    rw [List.foldl_cons]
    rcases List.mem_cons.mp ha with rfl | ha
    · have htakes : Session.takes s reserve l x a = (x.settledBy s a).offered (reservedFor reserve l) e := by
        unfold Session.takes
        rw [if_pos hx, he]
      rw [htakes]
      by_cases hroom : (x.settledBy s a).roomUsed + reservedFor reserve l < 24
      · left
        refine (Session.foldl_takes_grows s reserve l log _).subset ?_
        have hoffered : (x.settledBy s a).offered (reservedFor reserve l) e =
            { x.settledBy s a with queue := (x.settledBy s a).queue ++ [e], alertn := .low } := if_pos hroom
        rw [hoffered]
        exact List.mem_append_right _ List.mem_cons_self
      · right
        have hle := Session.roomUsed_le_foldl_takes s reserve l log ((x.settledBy s a).offered (reservedFor reserve l) e)
        rw [Session.roomUsed_offered, if_neg hroom] at hle
        omega
    · exact ih ha (hstate.trans hx) (hmask ▸ he)

/-- A completion that an announcement resolves is out of the table at the end, and its record in the queue. -/
theorem Session.resolved_foldl_takes {log : List Announcement} {x : Session} (hx : x.state = .attached) {r : Rail}
    {o : Outstanding} (ho : x.table.get r = some o) {P : EventRecord → Prop}
    (hmem : ∃ a ∈ log, a.rail? = some r ∧ (resolution a o.kind (s.rail r).level).isSome = true)
    (hP : ∀ a ∈ log, a.rail? = some r → ∀ code level d, resolution a o.kind (s.rail r).level = some (code, level, d) →
      P ⟨code, some r, some o.tag, level, d, s.timestamp⟩) :
    (log.foldl (Session.takes s reserve l) x).table.get r = none
      ∧ ∃ e ∈ (log.foldl (Session.takes s reserve l) x).queue, P e := by
  induction log generalizing x with
  | nil =>
    obtain ⟨a, ha, -⟩ := hmem
    exact absurd ha List.not_mem_nil
  | cons b log ih =>
    obtain ⟨hstate, -⟩ := Session.takes_kept s reserve l x b
    rw [List.foldl_cons]
    by_cases hb : b.rail? = some r ∧ (resolution b o.kind (s.rail r).level).isSome = true
    · obtain ⟨hrail, hsome⟩ := hb
      obtain ⟨⟨code, level, d⟩, hd⟩ := Option.isSome_iff_exists.mp hsome
      have hres : s.resolutionFor x b = some (r, code, level, d) := by
        unfold State.resolutionFor
        rw [hrail, Option.bind_some, ho, Option.bind_some, hd]
        rfl
      refine ⟨Session.foldl_takes_table_none s reserve l log ?_, _, (Session.foldl_takes_grows s reserve l log _).subset ?_,
        hP b List.mem_cons_self hrail code level d hd⟩
      · rw [Session.table_takes, if_pos ⟨hx, congrArg (Option.map Prod.fst) hres⟩]
      · have hqueue : (⟨code, some r, some o.tag, level, d, s.timestamp⟩ : EventRecord) ∈ (x.settledBy s b).queue := by
          unfold Session.settledBy
          rw [hres]
          dsimp only
          unfold Session.resolved
          rw [ho]
          exact List.mem_append_right _ List.mem_cons_self
        unfold Session.takes
        rw [if_pos hx]
        split
        · exact (Session.offered_grows ..).subset hqueue
        · exact hqueue
    · have hkeep : (Session.takes s reserve l x b).table.get r = some o := by
        rw [Session.table_takes, if_neg, ho]
        rintro ⟨-, hres⟩
        obtain ⟨⟨_, d⟩, hres, hfst⟩ := Option.map_eq_some_iff.mp hres
        unfold State.resolutionFor at hres
        obtain ⟨q, hq, hres⟩ := Option.bind_eq_some_iff.mp hres
        obtain ⟨o', ho', hres⟩ := Option.bind_eq_some_iff.mp hres
        obtain ⟨d', hd', hpair⟩ := Option.map_eq_some_iff.mp hres
        obtain rfl : q = r := (congrArg Prod.fst hpair).trans hfst
        rw [ho] at ho'
        obtain rfl := Option.some.inj ho'
        exact hb ⟨hq, by rw [hd']; rfl⟩
      obtain ⟨a, ha, hrail, hsome⟩ := hmem
      refine ih (hstate.trans hx) hkeep ?_ fun a ha => hP a (List.mem_cons_of_mem b ha)
      rcases List.mem_cons.mp ha with rfl | ha
      · exact absurd ⟨hrail, hsome⟩ hb
      · exact ⟨a, ha, hrail, hsome⟩

end

end Sys2Proof.Machine
end

/-! ### The cascade of an entry into FAULT (R101 to R103) -/

section
namespace Sys2Proof.Machine

/-- What the cascade from the generation `gen` makes of an event: the rails it reaches, and the running children of those, are
forced down, and each is announced. -/
structure Cascaded (k : FaultKind) (gen : List Rail) (e e' : Event) : Prop where
  forced : ∀ q, (e.st.rail q).state.running = true → (e'.st.rail q).state.running = false →
    SameButHolds ((e.st.rail q).toDraining q (e.st.record q) .parentFault) (e'.st.rail q) ∧ .forcedOff q k ∈ e'.log
      ∧ e'.st.queued q = false
  kept : ∀ q, (e'.st.rail q).state.running = (e.st.rail q).state.running → SameButHolds (e.st.rail q) (e'.st.rail q)
  only : ∀ q, (e'.st.rail q).state.running = true → (e.st.rail q).state.running = true
  reach : ∀ c ∈ gen, (e'.st.rail c).state.running = false
  onward : ∀ p c, (e.st.rail p).state.running = true → (e'.st.rail p).state.running = false → e.st.isParent p c = true →
    (e'.st.rail c).state.running = false
  log : e.log <+: e'.log

/-- How many rails run. -/
def State.runCount (s : State) : Nat := allRails.countP fun r => (s.rail r).state.running

theorem State.runCount_le (s : State) : s.runCount ≤ Config.railRounds := List.countP_le_length

/-- One generation: its running rails are forced down. -/
structure ForcedDown (k : FaultKind) (hit : List Rail) (e e' : Event) : Prop where
  only : OnlyRails e.st e'.st
  rail : ∀ q, SameButHolds (if q ∈ hit then (e.st.rail q).toDraining q (e.st.record q) .parentFault else e.st.rail q)
    (e'.st.rail q)
  told : e'.log = e.log ++ hit.map (.forcedOff · k)
  unqueued : ∀ q ∈ hit, e'.st.queued q = false
  quiet : ∀ q, e.st.queued q = false → e'.st.queued q = false

theorem queued_enterDraining (s : State) (r q : Rail) (c : DrainCause) :
    (s.enterDraining r c).queued q = (s.queued q && q != r) := by
  have hqueue : (s.enterDraining r c).budgetQueue = (s.withdraw r).budgetQueue := by
    unfold State.enterDraining
    dsimp only
    split
    · rw [moveRail_budgetQueue, giveBack_budgetQueue]
    · rw [moveRail_budgetQueue]
  unfold State.queued
  rw [hqueue, Bool.eq_iff_iff, Bool.and_eq_true, List.any_eq_true, List.any_eq_true]
  constructor
  · rintro ⟨x, hx, hq⟩
    obtain ⟨hx, hr⟩ := (s.mem_withdraw r x).mp hx
    obtain rfl : x.rail = q := beq_iff_eq.mp hq
    exact ⟨⟨x, hx, hq⟩, bne_iff_ne.mpr hr⟩
  · rintro ⟨⟨x, hx, hq⟩, hr⟩
    obtain rfl : x.rail = q := beq_iff_eq.mp hq
    exact ⟨x, (s.mem_withdraw r x).mpr ⟨hx, bne_iff_ne.mp hr⟩, hq⟩

theorem forceOff_of_running (k : FaultKind) {e : Event} {r : Rail} (h : (e.st.rail r).state.running = true) :
    forceOff k e r = ⟨e.st.enterDraining r .parentFault, e.log ++ [.forcedOff r k]⟩ := if_pos h

theorem forcedDown_foldl (k : FaultKind) {hit : List Rail} (hn : hit.Nodup) {e : Event}
    (h : ∀ q ∈ hit, (e.st.rail q).state.running = true) : ForcedDown k hit e (hit.foldl (forceOff k) e) := by
  induction hit generalizing e with
  | nil =>
    exact ⟨.refl _, fun q => .refl _, (List.append_nil _).symm, fun q hq => absurd hq List.not_mem_nil, fun q hq => hq⟩
  | cons a hit ih =>
    obtain ⟨ha, hn⟩ := List.nodup_cons.mp hn
    rw [List.foldl_cons, forceOff_of_running k (h a List.mem_cons_self)]
    have hb := becomes_enterDraining e.st a .parentFault
    have honly : OnlyRails e.st (e.st.enterDraining a .parentFault) := onlyRails_enterDraining ..
    have hrest := ih hn (e := ⟨e.st.enterDraining a .parentFault, e.log ++ [.forcedOff a k]⟩) fun q hq => by
      rw [hb.other fun hqa => ha (hqa ▸ hq)]
      exact h q (List.mem_cons_of_mem a hq)
    refine ⟨honly.trans hrest.only, fun q => ?_, ?_, fun q hq => ?_, fun q hq => hrest.quiet q ?_⟩
    · have hq' := hrest.rail q
      dsimp only at hq'
      by_cases hqa : q = a
      · subst hqa
        rw [if_neg ha] at hq'
        rw [if_pos List.mem_cons_self]
        exact hb.self.trans hq'
      · have hother := hb.other hqa
        by_cases hm : q ∈ hit
        · rw [if_pos hm, honly.record] at hq'
          rw [if_pos (List.mem_cons_of_mem a hm)]
          rw [hother] at hq'
          exact hq'
        · rw [if_neg hm] at hq'
          rw [if_neg (by simp [hqa, hm])]
          exact hother.trans hq'
    · rw [hrest.told, List.map_cons, List.append_assoc]
      rfl
    · rcases List.mem_cons.mp hq with rfl | hq
      · refine hrest.quiet q ?_
        change (e.st.enterDraining q .parentFault).queued q = false
        rw [queued_enterDraining, bne_self_eq_false, Bool.and_false]
      · exact hrest.unqueued q hq
    · change (e.st.enterDraining a .parentFault).queued q = false
      rw [queued_enterDraining, hq, Bool.false_and]

theorem ForcedDown.running {k : FaultKind} {hit : List Rail} {e e' : Event} (h : ForcedDown k hit e e') (q : Rail) :
    (e'.st.rail q).state.running = ((e.st.rail q).state.running && decide (q ∉ hit)) := by
  rw [h.rail q]
  by_cases hq : q ∈ hit
  · rw [if_pos hq, decide_eq_false (not_not_intro hq), Bool.and_false]
    rfl
  · rw [if_neg hq, decide_eq_true hq, Bool.and_true]

/-- A generation without a running rail ends the cascade. -/
theorem Cascaded.done {k : FaultKind} {gen : List Rail} {e : Event} (h : ∀ c ∈ gen, (e.st.rail c).state.running = false) :
    Cascaded k gen e e where
  forced q hq hq' := by rw [hq] at hq'; cases hq'
  kept q _ := .refl _
  only q hq := hq
  reach := h
  onward p c hp hp' := by rw [hp] at hp'; cases hp'
  log := List.prefix_refl _

/-- One generation, and the cascade from the children of the rails it has forced down. -/
theorem Cascaded.next {k : FaultKind} {gen hit : List Rail} {e e1 e2 : Event}
    (hhit : ∀ c, c ∈ hit ↔ c ∈ gen ∧ (e.st.rail c).state.running = true) (h : ForcedDown k hit e e1)
    (h' : Cascaded k (e.st.childrenOfAny hit) e1 e2) (hmoves : Moves e1.st e2.st) : Cascaded k gen e e2 := by
  have hrun (q : Rail) := h.running q
  have hdown {q : Rail} (hq : q ∈ hit) : (e1.st.rail q).state.running = false := by
    rw [hrun, decide_eq_false (not_not_intro hq), Bool.and_false]
  have hstay {q : Rail} (hq : (e1.st.rail q).state.running = false) : (e2.st.rail q).state.running = false :=
    Bool.eq_false_iff.mpr fun h2 => by
      rw [h'.only q h2] at hq
      cases hq
  have hsame {q : Rail} (hq : q ∉ hit) : SameButHolds (e.st.rail q) (e1.st.rail q) := by
    have hq' := h.rail q
    rwa [if_neg hq] at hq'
  refine ⟨fun q hq hq' => ?_, fun q hq => ?_, fun q hq => ?_, fun c hc => ?_, fun p c hp hp' hc => ?_, ?_⟩
  · by_cases hm : q ∈ hit
    · have hfirst := h.rail q
      rw [if_pos hm] at hfirst
      have hrest := h'.kept q (by rw [hq', hdown hm])
      refine ⟨hfirst.trans hrest, h'.log.subset ?_, ?_⟩
      · rw [h.told]
        exact List.mem_append_right _ (List.mem_map.mpr ⟨q, hm, rfl⟩)
      · refine hmoves.queued_of_frozen ?_ (h.unqueued q hm)
        rw [hfirst]
        exact .inr ⟨rfl, rfl⟩
    · have hrun1 : (e1.st.rail q).state.running = true := by rw [hrun, hq, decide_eq_true hm]; rfl
      obtain ⟨hforced, htold, hqueued⟩ := h'.forced q hrun1 hq'
      rw [h.only.record, hsame hm] at hforced
      exact ⟨hforced, htold, hqueued⟩
  · by_cases hm : q ∈ hit
    · rw [hstay (hdown hm), ((hhit q).mp hm).2] at hq
      cases hq
    · exact (hsame hm).trans (h'.kept q (by rw [hq, (hsame hm)]))
  · have h1 := h'.only q hq
    rw [hrun] at h1
    exact (Bool.and_eq_true _ _ ▸ h1).1
  · cases hc' : (e.st.rail c).state.running with
    | true => exact hstay (hdown ((hhit c).mpr ⟨hc, hc'⟩))
    | false =>
      refine hstay ?_
      rw [hrun, hc']
      rfl
  · by_cases hm : p ∈ hit
    · exact h'.reach c (List.mem_filter.mpr ⟨mem_allRails c, List.any_eq_true.mpr ⟨p, hm, hc⟩⟩)
    · have hp1 : (e1.st.rail p).state.running = true := by rw [hrun, hp, decide_eq_true hm]; rfl
      exact h'.onward p c hp1 hp' (by rw [State.isParent_of_onlyRails h.only]; exact hc)
  · refine .trans ?_ h'.log
    rw [h.told]
    exact List.prefix_append ..

/-- The cascade reaches as far as rails run. -/
theorem cascaded_cascade (k : FaultKind) {n : Nat} {gen : List Rail} (hgen : gen.Nodup) {e : Event} (hn : e.st.runCount ≤ n) :
    Cascaded k gen e (cascade k n gen e) := by
  induction n generalizing gen e with
  | zero =>
    refine .done fun c _ => Bool.eq_false_iff.mpr fun hc => ?_
    have hpos : 0 < e.st.runCount := List.countP_pos_iff.mpr ⟨c, mem_allRails c, hc⟩
    omega
  | succ n ih =>
    have hhit (c : Rail) : c ∈ gen.filter (fun r => (e.st.rail r).state.running) ↔
        c ∈ gen ∧ (e.st.rail c).state.running = true := List.mem_filter
    have hnodup : (gen.filter fun r => (e.st.rail r).state.running).Nodup := hgen.filter _
    unfold cascade
    generalize gen.filter (fun r => (e.st.rail r).state.running) = hit at hhit hnodup
    cases hit with
    | nil =>
      refine .done fun c hc => Bool.eq_false_iff.mpr fun hrun => ?_
      exact absurd ((hhit c).mpr ⟨hc, hrun⟩) List.not_mem_nil
    | cons a hit =>
      have hforced := forcedDown_foldl k hnodup fun q hq => ((hhit q).mp hq).2
      have hrun := hforced.running
      have hcount : ((a :: hit).foldl (forceOff k) e).st.runCount ≤ n := by
        have hless : ((a :: hit).foldl (forceOff k) e).st.runCount < e.st.runCount := by
          have hle : ((a :: hit).foldl (forceOff k) e).st.runCount ≤
              allRails.countP fun q => (e.st.rail q).state.running && decide (q ≠ a) :=
            List.countP_mono_left fun q _ hq => by
              rw [hrun] at hq
              obtain ⟨hq, hnot⟩ := (Bool.and_eq_true _ _).mp hq
              have hne : q ≠ a := fun hqa => of_decide_eq_true hnot (by rw [hqa]; exact List.mem_cons_self)
              rw [hq, decide_eq_true hne]
              rfl
          have hone := countP_add_one (p := fun q => (e.st.rail q).state.running)
            (q := fun q => (e.st.rail q).state.running && decide (q ≠ a)) (a := a) ((hhit a).mp List.mem_cons_self).2
            (by simp) (fun b hb => by simp [hb]) nodup_allRails (mem_allRails a)
          unfold State.runCount at hle ⊢
          omega
        omega
      refine .next hhit hforced ?_ (moves_cascade ..)
      exact ih (nodup_allRails.filter _) hcount

end Sys2Proof.Machine
end

/-! ### A fault found by a command (R47, R92 to R103) -/

section
namespace Sys2Proof.Machine

/-- The event of an entry into FAULT, ahead of its cascade. -/
def faultEntered (r : Rail) (k : FaultKind) (s : State) : Event := ⟨s.enterFault r k, [.enteredFault r k]⟩

/-- The event of an entry into FAULT with its cascade made. -/
def faultCascaded (r : Rail) (k : FaultKind) (s : State) : Event :=
  cascade k Config.railRounds ((s.enterFault r k).childrenOf r) (faultEntered r k s)

/-- The event of an entry into FAULT, its settling rails included. -/
def faultSettled (r : Rail) (k : FaultKind) (s : State) : Event := settleAfter (faultCascaded r k s)

theorem fail_eq (r : Rail) (k : FaultKind) (s : State) :
    fail r k s = conclude none (faultSettled r k s).log (faultSettled r k s).st { faultSettled r k s with log := [] } := rfl

theorem cascaded_faultCascaded (r : Rail) (k : FaultKind) (s : State) :
    Cascaded k ((s.enterFault r k).childrenOf r) (faultEntered r k s) (faultCascaded r k s) :=
  cascaded_cascade k (nodup_allRails.filter _) (State.runCount_le _)

theorem log_faultSettled (r : Rail) (k : FaultKind) (s : State) :
    (faultCascaded r k s).log <+: (faultSettled r k s).log := List.prefix_append ..

theorem moves_faultSettled (r : Rail) (k : FaultKind) (s : State) :
    Moves (faultCascaded r k s).st (faultSettled r k s).st := moves_settleAfter _

theorem queued_enterFault (s : State) (r : Rail) (k : FaultKind) : (s.enterFault r k).queued r = false := by
  have hqueue : (s.enterFault r k).budgetQueue = (s.withdraw r).budgetQueue := by
    unfold State.enterFault
    rw [moveRail_budgetQueue, giveBack_budgetQueue]
  unfold State.queued
  rw [hqueue]
  exact s.queued_withdraw r

/-- The state of an event that is one fault group, ahead of the delivery of its announcements. -/
def faultGranted (r : Rail) (k : FaultKind) (s : State) : State :=
  (Event.granted (faultSettled r k s).st { faultSettled r k s with log := [] }).st

theorem moves_faultGranted_cascaded (r : Rail) (k : FaultKind) (s : State) :
    Moves (faultCascaded r k s).st (faultGranted r k s) := by
  have h := moves_faultSettled r k s
  unfold faultGranted
  generalize faultSettled r k s = e at h
  exact h.trans (moves_granted e.st { e with log := [] })

theorem moves_faultGranted (r : Rail) (k : FaultKind) (s : State) : Moves (s.enterFault r k) (faultGranted r k s) :=
  (moves_cascade k _ _ (faultEntered r k s)).trans (moves_faultGranted_cascaded r k s)

section
variable (r : Rail) (k : FaultKind) (s : State)

theorem rail_fail (q : Rail) : (fail r k s).rail q = (faultGranted r k s).rail q := rail_conclude ..

theorem queued_fail (q : Rail) : (fail r k s).queued q = (faultGranted r k s).queued q := queued_conclude ..

/-- The rail of an entry into FAULT at the end of the event. -/
theorem rail_fail_self : OnlyAims ((s.rail r).toFault r k) ((fail r k s).rail r) := by
  have hself := (becomes_enterFault s r k).self
  have hfrozen : ((s.enterFault r k).rail r).Frozen := by
    rw [hself]
    exact .inl rfl
  rw [rail_fail]
  exact hself.onlyAims.trans ((moves_faultGranted r k s).onlyAims_of_frozen hfrozen)

theorem queued_fail_self : (fail r k s).queued r = false := by
  have hself := (becomes_enterFault s r k).self
  rw [queued_fail]
  refine (moves_faultGranted r k s).queued_of_frozen ?_ (queued_enterFault s r k)
  rw [hself]
  exact .inl rfl

/-- A rail in FAULT holds none of its parents. -/
theorem holdSet_fail {p : Rail} (hp : p ∈ s.parentsOf r) : ((fail r k s).rail p).holdSet.get r = false := by
  have hself := (becomes_enterFault s r k).self
  have hentered : ((s.enterFault r k).rail p).holdSet.get r = ((s.enterFault r k).rail r).state.holding := by
    have hstate : ((s.enterFault r k).rail r).state = .fault := by
      rw [hself]
      rfl
    rw [hstate]
    have hparents : ((s.withdraw r).giveBack r 0).parentsOf r = s.parentsOf r := rfl
    unfold State.enterFault
    rw [State.rail_moveRail, hparents]
    dsimp only
    rw [if_pos hp]
    exact (get_set ..).trans (if_pos rfl)
  have hfault : ((faultGranted r k s).rail r).state = .fault := by
    rw [← rail_fail, (rail_fail_self r k s).state]
    rfl
  have hstate : ((faultGranted r k s).rail r).state = ((s.enterFault r k).rail r).state := by
    rw [hfault, hself]
    rfl
  rw [rail_fail, (moves_faultGranted r k s).holdsFollow.of_state_eq hentered hstate, hfault]
  rfl

/-- The announcements of an event that is one fault group. -/
def faultTold : List Announcement :=
  Event.told (faultSettled r k s).log (faultSettled r k s).st { faultSettled r k s with log := [] }

/-- The announcement of the fault leads the others. -/
theorem faultTold_leads : ∃ rest, faultTold r k s = .enteredFault r k :: rest := by
  obtain ⟨rest, hrest⟩ := ((cascaded_faultCascaded r k s).log.trans (log_faultSettled r k s))
  unfold faultTold
  generalize faultSettled r k s = e at hrest
  unfold Event.told
  rw [← hrest]
  exact ⟨_, List.filter_cons_of_pos rfl⟩

theorem mem_faultTold {a : Announcement} (ha : a ∈ (faultCascaded r k s).log) (hstands : ∀ t, a.stands t = true) :
    a ∈ faultTold r k s := by
  have hmem := (log_faultSettled r k s).subset ha
  unfold faultTold
  generalize faultSettled r k s = e at hmem
  exact List.mem_filter.mpr ⟨List.mem_append_left _ hmem, hstands _⟩

theorem session_fail_told (l : Link) : (fail r k s).session l =
    (faultTold r k s).foldl (Session.takes (faultGranted r k s) none l) (s.session l) := by
  have hsame : (faultSettled r k s).st.session l = s.session l := by
    have honly : OnlyRails s (faultSettled r k s).st :=
      ((onlyRails_enterFault s r k).trans (onlyRails_cascade k _ _ (faultEntered r k s))).trans
        (onlyRails_settleAfter (faultCascaded r k s))
    exact honly.session l
  rw [fail_eq, ← hsame]
  unfold faultGranted faultTold
  generalize faultSettled r k s = e
  rw [session_conclude]

theorem session_fail (l : Link) : ∃ rest : List Announcement, (fail r k s).session l =
    rest.foldl (Session.takes (faultGranted r k s) none l)
      (Session.takes (faultGranted r k s) none l (s.session l) (.enteredFault r k)) := by
  obtain ⟨rest, hrest⟩ := faultTold_leads r k s
  refine ⟨rest, ?_⟩
  rw [session_fail_told, hrest, List.foldl_cons]

theorem onlyRails_faultGranted : OnlyRails s (faultGranted r k s) :=
  (onlyRails_enterFault s r k).trans (moves_faultGranted r k s).onlyRails

theorem claimant_faultGranted (l : Link) (q : Rail) : (faultGranted r k s).claimant l q = (s.claim l q != 0) := by
  have hclaims : ((faultGranted r k s).rail q).claims = (s.rail q).claims := by
    rw [← rail_fail, (reaction_fail_enterFault r k s).claims, becomes_enterFault s r k q]
    dsimp only
    split
    · next h => rw [h]; rfl
    · rfl
  unfold State.claimant
  rw [State.claim_of_claims_eq hclaims l]

end

/-- What an ATTACHED session makes of an entry into FAULT: its completion FAILED, then the notice (R99, R100). -/
theorem Session.takes_enteredFault (w : State) (l : Link) {x : Session} (hx : x.state = .attached) (r : Rail) (k : FaultKind) :
    (Session.takes w none l x (.enteredFault r k)).table.get r = none
      ∧ (Session.takes w none l x (.enteredFault r k)).queue =
        x.queue
          ++ ((x.table.get r).map fun o => (⟨.failed, some r, some o.tag, 0, .fault (some k), w.timestamp⟩ : EventRecord)).toList
          ++ if w.claimant l r = true ∧ x.mask.railFault = true ∧ x.roomUsed < 24 then
              [⟨.railFault, some r, none, 0, .fault (some k), w.timestamp⟩]
            else [] := by
  have hsettled : x.settledBy w (.enteredFault r k) = x.resolved r .failed 0 (.fault (some k)) w.timestamp := by
    unfold Session.settledBy State.resolutionFor
    dsimp only [Announcement.rail?, Option.bind_some]
    cases ho : x.table.get r with
    | none =>
      unfold Session.resolved
      rw [ho]
      rfl
    | some o =>
      have hres : resolution (.enteredFault r k) o.kind (w.rail r).level = some (.failed, 0, .fault (some k)) := by
        cases o.kind <;> rfl
      rw [Option.bind_some, hres]
      rfl
  have hqueue : (x.settledBy w (.enteredFault r k)).queue = x.queue ++ ((x.table.get r).map fun o =>
      (⟨.failed, some r, some o.tag, 0, .fault (some k), w.timestamp⟩ : EventRecord)).toList := by
    rw [hsettled]
    unfold Session.resolved
    cases x.table.get r with
    | none => exact (List.append_nil _).symm
    | some o => rfl
  have hroom := Session.roomUsed_settledBy w x (.enteredFault r k)
  constructor
  · rw [Session.table_takes]
    split
    · rfl
    · next h =>
      cases ho : x.table.get r with
      | none => rfl
      | some o =>
        refine absurd ⟨hx, ?_⟩ h
        unfold State.resolves State.resolutionFor
        dsimp only [Announcement.rail?, Option.bind_some]
        rw [ho, Option.bind_some]
        cases o.kind <;> rfl
  · unfold Session.takes State.noticeFrom
    rw [if_pos hx]
    dsimp only
    by_cases hmask : x.mask.railFault = true ∧ w.claimant l r = true
    · rw [hmask.1, hmask.2, Bool.and_true, if_pos rfl]
      dsimp only
      unfold Session.offered
      rw [hroom]
      change (if x.roomUsed < 24 then _ else _ : Session).queue = _
      by_cases hr : x.roomUsed < 24
      · rw [if_pos hr, if_pos ⟨rfl, rfl, hr⟩, ← hqueue]
      · rw [if_neg hr, if_neg fun h => hr h.2.2, List.append_nil, ← hqueue]
    · rw [if_neg fun h => hmask ((Bool.and_eq_true _ _).mp h), if_neg fun h => hmask ⟨h.2.1, h.1⟩, List.append_nil]
      exact hqueue

/-- The state in which a command that finds a fault finds it: a PG change has been taken. -/
structure FoundIn (s t : State) : Prop where
  only : OnlyRails s t
  rail : ∀ q, t.rail q = { s.rail q with pg := (t.rail q).pg }

theorem exec_of_finds {c : Instr} {s : State} {r : Rail} {k : FaultKind} (h : Finds s c r k) :
    ∃ s0, FoundIn s s0 ∧ exec c s = .next (fail r k s0) := by
  have same : FoundIn s s := ⟨.refl s, fun _ => rfl⟩
  cases h with
  | rampTimeout _ hstate htimer hm =>
    refine ⟨s, same, congrArg Host.Outcome.next ?_⟩
    exact (if_pos ⟨hstate, (Timer.expired_iff _).mpr htimer⟩).trans (if_pos hm)
  | slewFail _ hstate htimer hm hpg =>
    refine ⟨s, same, congrArg Host.Outcome.next ?_⟩
    exact (if_pos ⟨hstate, (Timer.expired_iff _).mpr htimer⟩).trans (if_pos ⟨hm, hpg⟩)
  | drainStuck _ hstate htimer hm hpg =>
    refine ⟨s, same, congrArg Host.Outcome.next ?_⟩
    exact (if_pos ⟨hstate, (Timer.expired_iff _).mpr htimer⟩).trans (if_pos ⟨hm, hpg⟩)
  | pgLost _ hstate hpg hcommitted hm =>
    have hrail (q : Rail) := s.rail_modRail r q fun x => { x with pg := .low }
    refine ⟨s.modRail r fun x => { x with pg := .low }, ⟨onlyRails_modRail .., fun q => ?_⟩, congrArg Host.Outcome.next ?_⟩
    · rw [hrail]
      split
      · next hq => rw [hq]
      · rfl
    · have hdefined : (s.record r).defined = true := ((Bool.and_eq_true _ _).mp hm).1
      have hactive : (s.modRail r fun x => { x with pg := .low }).activeRail r = true := by
        unfold State.activeRail
        exact (Bool.and_eq_true _ _).mpr ⟨beq_iff_eq.mpr hcommitted, hdefined⟩
      unfold pgChange
      rw [if_neg (by rw [hpg]; nofun)]
      dsimp only
      rw [if_pos ⟨hactive, hm⟩, hstate]

/-- Settles O31. -/
theorem foundFaultEntersFault : Obligations.FoundFaultEntersFault := by
  intro c s r k hfinds
  obtain ⟨s0, hfound, hexec⟩ := exec_of_finds hfinds
  have hself := rail_fail_self r k s0
  have hcount : (s0.rail r).faultCount = (s.rail r).faultCount := by rw [hfound.rail]
  refine ⟨_, hexec, ?_⟩
  refine ⟨by rw [hself]; rfl, by rw [hself]; rfl, ?_, by rw [hself]; rfl, by rw [hself]; rfl, by rw [hself]; rfl,
    by rw [hself]; rfl, by rw [hself]; rfl, by rw [hself]; rfl, ?_, by rw [hself]; rfl, queued_fail_self r k s0,
    fun p hp => holdSet_fail r k s0 (hfound.only.parentsOf r ▸ hp), fun l hattached => ?_⟩
  · rw [hself]
    change lvlCode r 0 = 0
    unfold lvlCode
    split <;> rfl
  · rw [hself, ← hcount]
    rfl
  · obtain ⟨rest, hsession⟩ := session_fail r k s0 l
    rw [hfound.only.session l] at hsession
    obtain ⟨htable, hqueue⟩ := Session.takes_enteredFault (faultGranted r k s0) l hattached r k
    have hclaim : (faultGranted r k s0).claimant l r = (s.claim l r != 0) := by
      have hclaims : (s0.rail r).claims = (s.rail r).claims := by rw [hfound.rail]
      rw [claimant_faultGranted, State.claim_of_claims_eq hclaims l]
    have hnow : (faultGranted r k s0).timestamp = s.timestamp :=
      ((onlyRails_faultGranted r k s0).timestamp).trans hfound.only.timestamp
    rw [hnow, hclaim] at hqueue
    simp only [bne_iff_ne] at hqueue
    unfold State.outstanding
    rw [hsession]
    refine ⟨Session.foldl_takes_table_none _ none l rest htable, ?_⟩
    have hgrows := Session.foldl_takes_grows (faultGranted r k s0) none l rest
      (Session.takes (faultGranted r k s0) none l (s.session l) (.enteredFault r k))
    rw [hqueue] at hgrows
    generalize (rest.foldl (Session.takes (faultGranted r k s0) none l)
      (Session.takes (faultGranted r k s0) none l (s.session l) (.enteredFault r k))).queue = q at hgrows
    cases ho : (s.session l).table.get r with
    | none =>
      rw [ho] at hgrows
      exact hgrows
    | some o =>
      rw [ho] at hgrows
      exact hgrows

/-- The rails that a cascade forces run until it reaches them. -/
theorem running_of_forced {s s0 : State} {r d : Rail} (k : FaultKind) (hfound : FoundIn s s0) (h : Forced s r d) :
    ((faultEntered r k s0).st.rail d).state.running = true ∧ ((faultCascaded r k s0).st.rail d).state.running = false := by
  have hcascaded := cascaded_faultCascaded r k s0
  have hentered {c : Rail} (hc : c ≠ r) (hrun : (s.rail c).state.running = true) :
      ((faultEntered r k s0).st.rail c).state.running = true := by
    change ((s0.enterFault r k).rail c).state.running = true
    rw [(becomes_enterFault s0 r k).other hc, hfound.rail]
    exact hrun
  have hparent (p c : Rail) : (s0.enterFault r k).isParent p c = s.isParent p c :=
    State.isParent_of_onlyRails (hfound.only.trans (onlyRails_enterFault s0 r k)) p c
  induction h with
  | direct c hc hcr hrun =>
    refine ⟨hentered hcr hrun, hcascaded.reach c (List.mem_filter.mpr ⟨mem_allRails c, ?_⟩)⟩
    rw [hparent]
    exact hc
  | onward p c _ hc hcr hrun ih =>
    refine ⟨hentered hcr hrun, hcascaded.onward p c ih.1 ih.2 ?_⟩
    exact (hparent p c).trans hc

/-- Settles O32. -/
theorem cascadeForcesRunningDescendants : Obligations.CascadeForcesRunningDescendants := by
  intro c s t r d k hfinds hforced hexec
  obtain ⟨s0, hfound, hexec'⟩ := exec_of_finds hfinds
  rw [hexec] at hexec'
  obtain rfl := Host.Outcome.next.inj hexec'
  obtain ⟨hrun, hstopped⟩ := running_of_forced k hfound hforced
  obtain ⟨hdrained, htold, hqueued⟩ := (cascaded_faultCascaded r k s0).forced d hrun hstopped
  have hd : d ≠ r := by cases hforced <;> assumption
  have hentered : SameButHolds (s0.rail d) ((faultEntered r k s0).st.rail d) := (becomes_enterFault s0 r k).other hd
  have hrecord : (faultEntered r k s0).st.record d = s.record d :=
    ((onlyRails_enterFault s0 r k).record d).trans (hfound.only.record d)
  have hfrozen : ((faultCascaded r k s0).st.rail d).Frozen := by
    rw [hdrained]
    exact .inr ⟨rfl, rfl⟩
  have hbase : ∃ hs pg, (faultEntered r k s0).st.rail d = { s.rail d with holdSet := hs, pg := pg } := by
    refine ⟨((faultEntered r k s0).st.rail d).holdSet, (s0.rail d).pg, ?_⟩
    unfold SameButHolds at hentered
    rw [hfound.rail] at hentered
    exact hentered
  obtain ⟨hs, pg, hbase⟩ := hbase
  rw [hrecord, hbase] at hdrained
  have hrail : OnlyAims (({ s.rail d with holdSet := hs, pg := pg } : RailRuntime).toDraining d (s.record d) .parentFault)
      ((fail r k s0).rail d) := by
    rw [rail_fail]
    exact hdrained.onlyAims.trans ((moves_faultGranted_cascaded r k s0).onlyAims_of_frozen hfrozen)
  have hlevel : ((fail r k s0).rail d).level = (s.rail d).level := hrail.level
  refine ⟨hrail.state, congrArg RailRuntime.drainCause hrail, congrArg RailRuntime.en hrail, hlevel,
    congrArg RailRuntime.drainFinished hrail, congrArg RailRuntime.timer hrail, (congrArg RailRuntime.claims hrail).trans rfl, ?_,
    fun l hattached hmask hclaim => ?_⟩
  · rw [queued_fail]
    exact (moves_faultGranted_cascaded r k s0).queued_of_frozen hfrozen hqueued
  · have hmem : .forcedOff d k ∈ faultTold r k s0 := mem_faultTold r k s0 htold fun _ => rfl
    have hclaimant : (faultGranted r k s0).claimant l d = true := by
      have hclaims : (s0.rail d).claims = (s.rail d).claims := by rw [hfound.rail]
      rw [claimant_faultGranted, State.claim_of_claims_eq hclaims l]
      exact bne_iff_ne.mpr hclaim
    have hnotice : (faultGranted r k s0).noticeFrom l (s.session l).mask (.forcedOff d k) =
        some ⟨.forcedOff, some d, none, (s.rail d).level, .fault (some k), s.timestamp⟩ := by
      unfold State.noticeFrom
      dsimp only
      rw [hmask, hclaimant, ← rail_fail, hlevel, (onlyRails_faultGranted r k s0).timestamp, hfound.only.timestamp]
      rfl
    rw [session_fail_told, hfound.only.session l]
    have hoffered := Session.mem_foldl_takes (faultGranted r k s0) none l hmem hattached hnotice
    rwa [reservedFor_none, Nat.add_zero] at hoffered

end Sys2Proof.Machine
end

/-! ### Rail and part records and their bytes (R165, R166, R190) -/

section
namespace Sys2Proof.Machine

theorem extractLsb'_append_low {n m : Nat} (hi : BitVec n) (lo : BitVec m) : (hi ++ lo).extractLsb' 0 m = lo := by
  apply BitVec.eq_of_toNat_eq
  rw [BitVec.extractLsb'_toNat, toNat_append_fields, Nat.shiftRight_zero, Nat.mul_comm, Nat.mul_add_mod,
    Nat.mod_eq_of_lt lo.isLt]

theorem extractLsb'_append_high {n m : Nat} (hi : BitVec n) (lo : BitVec m) : (hi ++ lo).extractLsb' m n = hi := by
  apply BitVec.eq_of_toNat_eq
  rw [BitVec.extractLsb'_toNat, toNat_append_fields, Nat.shiftRight_eq_div_pow, Nat.mul_comm,
    Nat.mul_add_div (Nat.two_pow_pos m), Nat.div_eq_of_lt lo.isLt, Nat.add_zero, Nat.mod_eq_of_lt hi.isLt]

theorem append_extractLsb' {n m : Nat} (x : BitVec (n + m)) : x.extractLsb' m n ++ x.extractLsb' 0 m = x := by
  apply BitVec.eq_of_toNat_eq
  have hx : x.toNat / 2 ^ m < 2 ^ n := Nat.div_lt_of_lt_mul (calc
    x.toNat < 2 ^ (n + m) := x.isLt
    _ = 2 ^ m * 2 ^ n := by rw [Nat.pow_add, Nat.mul_comm])
  rw [toNat_append_fields, BitVec.extractLsb'_toNat, BitVec.extractLsb'_toNat, Nat.shiftRight_eq_div_pow,
    Nat.shiftRight_zero, Nat.mod_eq_of_lt hx, Nat.mul_comm]
  exact Nat.div_add_mod ..

/-! ### The cost entries -/

theorem readPairs_flatMap_twoBytes (costs : List (BitVec 16)) (rest : List Byte) :
    readPairs costs.length (costs.flatMap twoBytes ++ rest) = costs := by
  induction costs with
  | nil => cases rest <;> rfl
  | cons c costs ih =>
    change (c.extractLsb' 8 8 ++ c.extractLsb' 0 8) :: readPairs costs.length (costs.flatMap twoBytes ++ rest) = _
    rw [ih, twoBytes_append]

theorem flatMap_twoBytes_readPairs {n : Nat} {bs : List Byte} (h : 2 * n ≤ bs.length) :
    (readPairs n bs).flatMap twoBytes = bs.take (2 * n) := by
  induction n generalizing bs with
  | zero => cases bs <;> rfl
  | succ n ih =>
    match bs, h with
    | hi :: lo :: rest, h =>
      have hrest : 2 * n ≤ rest.length := by
        simp only [List.length_cons] at h
        omega
      rw [readPairs, List.flatMap_cons, ih hrest]
      change (hi ++ lo).extractLsb' 8 8 :: (hi ++ lo).extractLsb' 0 8 :: _ = hi :: lo :: _
      rw [extractLsb'_append_high, extractLsb'_append_low]
      rfl

theorem length_flatMap_twoBytes (costs : List (BitVec 16)) : (costs.flatMap twoBytes).length = 2 * costs.length := by
  induction costs with
  | nil => rfl
  | cons c costs ih =>
    rw [List.flatMap_cons, List.length_append, ih, List.length_cons]
    change 2 + _ = _
    omega

/-! ### The flags byte -/

/-- The flags byte of a rail record. -/
def flagsByte (x : RailRecord) (n : Nat) : Byte :=
  BitVec.ofBool x.defined ++ BitVec.ofBool (x.pgMode == .timed) ++ BitVec.ofBool (x.shedClass == .shed)
    ++ x.priority ++ BitVec.ofNat 3 n

theorem toNat_flagsByte (x : RailRecord) (n : Nat) :
    (flagsByte x n).toNat =
      x.defined.toNat * 128 + (x.pgMode == .timed).toNat * 64 + (x.shedClass == .shed).toNat * 32 + x.priority.toNat * 8
        + n % 8 := by
  unfold flagsByte
  rw [toNat_append_fields, toNat_append_fields, toNat_append_fields, toNat_append_fields, BitVec.toNat_ofNat,
    BitVec.toNat_ofBool, BitVec.toNat_ofBool, BitVec.toNat_ofBool]
  omega

/-! ### The rail record -/

theorem railRecordBytes_eq (r : Rail) (x : RailRecord) :
    railRecordBytes r x =
      BitVec.ofNat 8 r.val :: flagsByte x x.parents.length :: (x.levelCount ++ x.retryLimit) :: x.rampTime :: x.slewTime
        :: x.drainTime :: (x.costs.flatMap twoBytes ++ x.parents) := rfl

theorem toBool_mul_eq (b : Bool) {n : Nat} (h : n = b.toNat) : decide (n = 1) = b := by
  cases b <;> simp [h]

/-- The flags byte spells the flags and the priority it is made of. -/
theorem parse_flagsByte {x : RailRecord} {n : Nat} (hn : n ≤ 7) :
    (flagsByte x n).getLsbD 7 = x.defined ∧ (flagsByte x n).getLsbD 6 = (x.pgMode == .timed)
      ∧ (flagsByte x n).getLsbD 5 = (x.shedClass == .shed) ∧ (flagsByte x n).extractLsb' 3 2 = x.priority
      ∧ (flagsByte x n).toNat % 8 = n := by
  have hflags := toNat_flagsByte x n
  have hp : x.priority.toNat < 4 := x.priority.isLt
  have hd : x.defined.toNat ≤ 1 := Bool.toNat_le _
  have hg : (x.pgMode == .timed).toNat ≤ 1 := Bool.toNat_le _
  have hs : (x.shedClass == .shed).toNat ≤ 1 := Bool.toNat_le _
  refine ⟨?_, ?_, ?_, ?_, by omega⟩
  · rw [getLsbD_eq_decide]
    exact toBool_mul_eq _ (by omega)
  · rw [getLsbD_eq_decide]
    exact toBool_mul_eq _ (by omega)
  · rw [getLsbD_eq_decide]
    exact toBool_mul_eq _ (by omega)
  · apply BitVec.eq_of_toNat_eq
    rw [toNat_extractLsb']
    omega

/-- The record that the bytes of a rail record spell. -/
theorem parseRailRecord_railRecordBytes (r : Rail) {x : RailRecord} (hcosts : x.costs.length = x.levelCount.toNat)
    (hparents : x.parents.length ≤ 7) : parseRailRecord (railRecordBytes r x) = x := by
  obtain ⟨hdefined, hmode, hclass, hpriority, -⟩ := parse_flagsByte (x := x) hparents
  have hlevels : recordLevels (railRecordBytes r x) = x.costs.length := by
    change ((x.levelCount ++ x.retryLimit).extractLsb' 4 4).toNat = _
    rw [extractLsb'_append_high, hcosts]
  have hdrop : (railRecordBytes r x).drop (6 + 2 * x.costs.length) = x.parents := by
    rw [railRecordBytes_eq, ← length_flatMap_twoBytes, Nat.add_comm]
    exact List.drop_left
  have hread : readPairs x.costs.length ((railRecordBytes r x).drop 6) = x.costs := readPairs_flatMap_twoBytes ..
  have htimed : (if (flagsByte x x.parents.length).getLsbD 6 then PgMode.timed else .monitored) = x.pgMode := by
    rw [hmode]
    cases x.pgMode <;> rfl
  have hshed : (if (flagsByte x x.parents.length).getLsbD 5 then ShedClass.shed else .keep) = x.shedClass := by
    rw [hclass]
    cases x.shedClass <;> rfl
  unfold parseRailRecord
  rw [hlevels, hdrop, hread]
  change (⟨(flagsByte x x.parents.length).getLsbD 7, if (flagsByte x x.parents.length).getLsbD 6 then .timed else .monitored,
    if (flagsByte x x.parents.length).getLsbD 5 then .shed else .keep, (flagsByte x x.parents.length).extractLsb' 3 2,
    (x.levelCount ++ x.retryLimit).extractLsb' 4 4, (x.levelCount ++ x.retryLimit).extractLsb' 0 4, x.rampTime, x.slewTime,
    x.drainTime, x.costs, x.parents⟩ : RailRecord) = x
  rw [hdefined, htimed, hshed, hpriority, extractLsb'_append_high, extractLsb'_append_low]

theorem recordLengthOk_railRecordBytes (r : Rail) {x : RailRecord} (hcosts : x.costs.length = x.levelCount.toNat)
    (hparents : x.parents.length ≤ 7) : recordLengthOk (railRecordBytes r x) = true := by
  have hlevels : ((railRecordBytes r x).getD 2 0).toNat / 16 = x.costs.length := by
    rw [← recordLevels_eq, hcosts]
    change ((x.levelCount ++ x.retryLimit).extractLsb' 4 4).toNat = _
    rw [extractLsb'_append_high]
  have hcount : ((railRecordBytes r x).getD 1 0).toNat % 8 = x.parents.length := (parse_flagsByte hparents).2.2.2.2
  rw [recordLengthOk_iff, hlevels, hcount, railRecordBytes_eq]
  simp only [List.length_cons, List.length_append, length_flatMap_twoBytes]
  omega

/-- The flags byte is made of what it spells. -/
theorem flagsByte_parse (b : Byte) {x : RailRecord} {n : Nat} (hd : x.defined = b.getLsbD 7)
    (hg : x.pgMode = if b.getLsbD 6 then .timed else .monitored) (hs : x.shedClass = if b.getLsbD 5 then .shed else .keep)
    (hp : x.priority = b.extractLsb' 3 2) (hn : n = b.toNat % 8) : flagsByte x n = b := by
  have hb := b.isLt
  have hmode : (x.pgMode == .timed) = b.getLsbD 6 := by
    rw [hg]
    cases b.getLsbD 6 <;> rfl
  have hclass : (x.shedClass == .shed) = b.getLsbD 5 := by
    rw [hs]
    cases b.getLsbD 5 <;> rfl
  have hbit (i : Nat) : (b.getLsbD i).toNat = b.toNat / 2 ^ i % 2 := by
    rw [getLsbD_eq_decide]
    rcases Nat.mod_two_eq_zero_or_one (b.toNat / 2 ^ i) with h | h <;> rw [h] <;> rfl
  apply BitVec.eq_of_toNat_eq
  rw [toNat_flagsByte, hd, hmode, hclass, hp, hbit, hbit, hbit, toNat_extractLsb']
  omega

/-- The bytes of the record that the bytes of an accepted WRITE_RAIL spell. -/
theorem railRecordBytes_parseRailRecord (r : Rail) {bs : List Byte} (hhead : bs.head? = some (BitVec.ofNat 8 r.val))
    (hlong : 6 ≤ bs.length) (hok : recordLengthOk bs = true) : railRecordBytes r (parseRailRecord bs) = bs := by
  rw [recordLengthOk_iff] at hok
  match bs, hhead, hlong, hok with
  | b0 :: b1 :: b2 :: b3 :: b4 :: b5 :: rest, hhead, _, hok =>
    obtain rfl : b0 = BitVec.ofNat 8 r.val := Option.some.inj hhead
    have hlength : rest.length = 2 * (b2.toNat / 16) + b1.toNat % 8 := by
      have h : rest.length + 6 = 6 + 2 * (b2.toNat / 16) + b1.toNat % 8 := hok
      omega
    have hlevels : (b2.extractLsb' 4 4).toNat = b2.toNat / 16 := toNat_upperNibble b2
    have hparents : (parseRailRecord (BitVec.ofNat 8 r.val :: b1 :: b2 :: b3 :: b4 :: b5 :: rest)).parents =
        rest.drop (2 * (b2.toNat / 16)) := by
      rw [← hlevels, parents_parseRailRecord, Nat.add_comm]
      rw [hlevels]
      rfl
    have hcosts : (parseRailRecord (BitVec.ofNat 8 r.val :: b1 :: b2 :: b3 :: b4 :: b5 :: rest)).costs =
        readPairs (b2.toNat / 16) rest := by
      rw [← hlevels]
      rfl
    rw [railRecordBytes_eq, hparents, hcosts, flatMap_twoBytes_readPairs (by omega), List.take_append_drop,
      flagsByte_parse b1 rfl rfl rfl rfl (by rw [List.length_drop]; omega)]
    change _ :: _ :: (b2.extractLsb' 4 4 ++ b2.extractLsb' 0 4) :: _ = _
    rw [append_extractLsb' (n := 4) (m := 4) b2]
    rfl

/-! ### The part record -/

theorem parsePartRecord_partRecordBytes (p : PartRecord) : parsePartRecord (partRecordBytes p) = p := by
  have hfull := p.budgetFull.isLt
  have hlow := p.budgetLow.isLt
  have hcrit := p.critCode.isLt
  have hwarn := p.warnCode.isLt
  have hband := p.hysteresisCode.isLt
  unfold parsePartRecord
  change (⟨p.budgetFull.extractLsb' 4 8 ++ (p.budgetFull.extractLsb' 0 4 ++ p.budgetLow.extractLsb' 8 4).extractLsb' 4 4,
    (p.budgetFull.extractLsb' 0 4 ++ p.budgetLow.extractLsb' 8 4).extractLsb' 0 4 ++ p.budgetLow.extractLsb' 0 8,
    (p.warnCode ++ p.critCode.extractLsb' 4 2).extractLsb' 2 6,
    (p.warnCode ++ p.critCode.extractLsb' 4 2).extractLsb' 0 2
      ++ (p.critCode.extractLsb' 0 4 ++ p.hysteresisCode ++ 0#1).extractLsb' 4 4,
    (p.critCode.extractLsb' 0 4 ++ p.hysteresisCode ++ 0#1).extractLsb' 1 3, p.holdoffCode⟩ : PartRecord) = p
  have hcritLow : (p.critCode.extractLsb' 0 4 ++ p.hysteresisCode ++ 0#1).extractLsb' 4 4 = p.critCode.extractLsb' 0 4 := by
    apply BitVec.eq_of_toNat_eq
    simp only [BitVec.extractLsb'_toNat, toNat_append_fields, Nat.shiftRight_eq_div_pow, BitVec.toNat_ofNat]
    omega
  have hhysteresis : (p.critCode.extractLsb' 0 4 ++ p.hysteresisCode ++ 0#1).extractLsb' 1 3 = p.hysteresisCode := by
    apply BitVec.eq_of_toNat_eq
    simp only [BitVec.extractLsb'_toNat, toNat_append_fields, Nat.shiftRight_eq_div_pow, BitVec.toNat_ofNat]
    omega
  rw [extractLsb'_append_high, extractLsb'_append_low, extractLsb'_append_high, extractLsb'_append_low, hcritLow, hhysteresis,
    append_extractLsb' (n := 8) (m := 4) p.budgetFull, append_extractLsb' (n := 4) (m := 8) p.budgetLow,
    append_extractLsb' (n := 2) (m := 4) p.critCode]

theorem partRecordBytes_parsePartRecord (b0 b1 b2 b3 b4 b5 : Byte) :
    partRecordBytes (parsePartRecord [b0, b1, b2, b3, b4, b5]) = [b0, b1, b2, b3, b4 &&& 0xFE, b5] := by
  change [(b0 ++ b1.extractLsb' 4 4).extractLsb' 4 8,
    (b0 ++ b1.extractLsb' 4 4).extractLsb' 0 4 ++ (b1.extractLsb' 0 4 ++ b2).extractLsb' 8 4,
    (b1.extractLsb' 0 4 ++ b2).extractLsb' 0 8, b3.extractLsb' 2 6 ++ (b3.extractLsb' 0 2 ++ b4.extractLsb' 4 4).extractLsb' 4 2,
    (b3.extractLsb' 0 2 ++ b4.extractLsb' 4 4).extractLsb' 0 4 ++ b4.extractLsb' 1 3 ++ 0#1, b5] = _
  have hlast : b4.extractLsb' 4 4 ++ b4.extractLsb' 1 3 ++ 0#1 = b4 &&& 0xFE := by
    revert b4
    decide
  rw [extractLsb'_append_high, extractLsb'_append_low, extractLsb'_append_high, extractLsb'_append_low, extractLsb'_append_high,
    extractLsb'_append_low, append_extractLsb' (n := 4) (m := 4) b1, append_extractLsb' (n := 6) (m := 2) b3, hlast]

/-- Settles O57. -/
theorem recordsRoundTrip : Obligations.RecordsRoundTrip :=
  ⟨⟨fun r _ hcosts hparents => ⟨recordLengthOk_railRecordBytes r hcosts hparents,
      parseRailRecord_railRecordBytes r hcosts hparents, rfl⟩,
    fun r _ hhead hlong hok => railRecordBytes_parseRailRecord r hhead hlong hok⟩,
    fun p => ⟨parsePartRecord_partRecordBytes p, rfl⟩, partRecordBytes_parsePartRecord⟩

end Sys2Proof.Machine
end

/-! ### The order of the budget wait queue (R79, R80, R82) -/

section
namespace Sys2Proof.Machine

/-- The queue holds no rail twice, carries the priorities of the table, and is in their order. -/
structure QueueOrdered (s : State) : Prop where
  priority : ∀ q ∈ s.budgetQueue, q.priority = (s.record q.rail).priority
  once : (s.budgetQueue.map QueueEntry.rail).Nodup
  order : s.budgetQueue.Pairwise fun a b => b.priority ≤ a.priority

theorem QueueKept.ordered {s : State} (h : QueueKept s) : QueueOrdered s := ⟨fun q hq => (h.entry q hq).2, h.once, h.order⟩

theorem QueueOrdered.nil {s : State} (h : s.budgetQueue = []) : QueueOrdered s := by
  refine ⟨fun q hq => ?_, ?_, ?_⟩
  · rw [h] at hq
    exact absurd hq List.not_mem_nil
  · rw [h]
    exact List.nodup_nil
  · rw [h]
    exact List.Pairwise.nil

theorem QueueOrdered.sublist {s t : State} (hs : QueueOrdered s) (hrecords : t.records = s.records)
    (hqueue : t.budgetQueue.Sublist s.budgetQueue) : QueueOrdered t where
  priority q hq := by
    unfold State.record
    rw [hrecords]
    exact hs.priority q (hqueue.subset hq)
  once := hs.once.sublist (hqueue.map _)
  order := hs.order.sublist hqueue

theorem QueueOrdered.same {s t : State} (hs : QueueOrdered s) (hrecords : t.records = s.records)
    (hqueue : t.budgetQueue = s.budgetQueue) : QueueOrdered t :=
  hs.sublist hrecords (hqueue ▸ List.Sublist.refl _)

theorem withdraw_sublist (s : State) (r : Rail) : (s.withdraw r).budgetQueue.Sublist s.budgetQueue := List.filter_sublist

theorem enterDraining_sublist (s : State) (r : Rail) (c : DrainCause) :
    (s.enterDraining r c).budgetQueue.Sublist s.budgetQueue := by
  unfold State.enterDraining
  dsimp only
  split
  · rw [moveRail_budgetQueue, giveBack_budgetQueue]
    exact withdraw_sublist s r
  · rw [moveRail_budgetQueue]
    exact withdraw_sublist s r

theorem enterFault_sublist (s : State) (r : Rail) (k : FaultKind) : (s.enterFault r k).budgetQueue.Sublist s.budgetQueue := by
  unfold State.enterFault
  rw [moveRail_budgetQueue, giveBack_budgetQueue]
  exact withdraw_sublist s r

theorem enterSlewing_sublist (s : State) (r : Rail) : (s.enterSlewing r).budgetQueue.Sublist s.budgetQueue := by
  unfold State.enterSlewing
  rw [moveRail_budgetQueue]
  exact withdraw_sublist s r

theorem enterOn_budgetQueue (s : State) (r : Rail) : (s.enterOn r).budgetQueue = s.budgetQueue := by
  unfold State.enterOn
  dsimp only
  split
  · rw [moveRail_budgetQueue, giveBack_budgetQueue]
  · rw [moveRail_budgetQueue]

/-! #### An entry joins -/

theorem map_rail_placeEntry (e : QueueEntry) (q : List QueueEntry) :
    ((placeEntry e q).map QueueEntry.rail).Perm (e.rail :: q.map QueueEntry.rail) := by
  induction q with
  | nil => exact .refl _
  | cons x q ih =>
    unfold placeEntry
    split
    · exact (ih.cons x.rail).trans (.swap ..)
    · exact .refl _

theorem pairwise_placeEntry {e : QueueEntry} {q : List QueueEntry} (h : q.Pairwise fun a b => b.priority ≤ a.priority) :
    (placeEntry e q).Pairwise fun a b => b.priority ≤ a.priority := by
  induction q with
  | nil => exact List.pairwise_singleton ..
  | cons x q ih =>
    obtain ⟨hx, hq⟩ := List.pairwise_cons.mp h
    by_cases hle : e.priority ≤ x.priority
    · rw [placeEntry_cons_of_le q hle]
      refine List.pairwise_cons.mpr ⟨fun y hy => ?_, ih hq⟩
      rcases (mem_placeEntry e y q).mp hy with rfl | hy
      · exact hle
      · exact hx y hy
    · have hlt : x.priority < e.priority := BitVec.not_le.mp hle
      have hplace : placeEntry e (x :: q) = e :: x :: q := if_neg hle
      rw [hplace]
      refine List.pairwise_cons.mpr ⟨fun y hy => ?_, h⟩
      rcases List.mem_cons.mp hy with rfl | hy
      · exact Nat.le_of_lt hlt
      · exact Nat.le_trans (hx y hy) (Nat.le_of_lt hlt)

theorem QueueOrdered.placeRequest {s : State} (hs : QueueOrdered s) (r : Rail) : QueueOrdered (s.placeRequest r) := by
  unfold State.placeRequest
  cases hnew : s.newRequest r with
  | none => exact hs
  | some a =>
    obtain ⟨k, n⟩ := a
    have hfree : r ∉ s.budgetQueue.map QueueEntry.rail := fun hmem => by
      obtain ⟨q, hq, rfl⟩ := List.mem_map.mp hmem
      have hqueued : s.queued q.rail = true := List.any_eq_true.mpr ⟨q, hq, beq_self_eq_true _⟩
      unfold State.newRequest at hnew
      rw [if_pos hqueued] at hnew
      cases hnew
    refine ⟨fun q hq => ?_, ?_, pairwise_placeEntry hs.order⟩
    · rcases (mem_placeEntry _ q _).mp hq with rfl | hq
      · rfl
      · exact hs.priority q hq
    · exact (map_rail_placeEntry ..).nodup_iff.mpr (List.nodup_cons.mpr ⟨hfree, hs.once⟩)

theorem State.revised_some {s : State} {q x : QueueEntry} (h : s.revised q = some x) :
    x.rail = q.rail ∧ x.priority = q.priority := by
  unfold State.revised at h
  split at h
  · split at h
    · obtain rfl := Option.some.inj h
      exact ⟨rfl, rfl⟩
    · cases h
  · cases h

theorem QueueOrdered.reconcile {s : State} (hs : QueueOrdered s) : QueueOrdered s.reconcile := by
  rw [s.reconcile_eq]
  refine ⟨fun x hx => ?_, ?_, ?_⟩
  · obtain ⟨q, hq, hrevised⟩ := List.mem_filterMap.mp hx
    obtain ⟨hrail, hpriority⟩ := State.revised_some hrevised
    rw [hpriority, hs.priority q hq, hrail]
    rfl
  · have hsub : ((s.budgetQueue.filterMap s.revised).map QueueEntry.rail).Sublist (s.budgetQueue.map QueueEntry.rail) := by
      induction s.budgetQueue with
      | nil => exact .slnil
      | cons q qs ih =>
        rw [List.filterMap_cons]
        cases hrevised : s.revised q with
        | none => exact ih.cons _
        | some x =>
          rw [List.map_cons, List.map_cons, (State.revised_some hrevised).1]
          exact ih.cons_cons _
    exact hs.once.sublist hsub
  · refine List.Pairwise.filterMap s.revised (fun a b hab x hx y hy => ?_) hs.order
    rw [(State.revised_some hx).2, (State.revised_some hy).2]
    exact hab

/-! #### Along the changes of a command -/

theorem Move.ordered {s t : State} (h : Move s t) (hs : QueueOrdered s) : QueueOrdered t := by
  have hrecords := h.onlyRails.records
  cases h with
  | target r => exact hs.same hrecords rfl
  | wait r _ _ => exact hs.same hrecords (moveRail_budgetQueue ..)
  | unwait r _ _ =>
    refine hs.sublist hrecords ?_
    rw [State.leaveWaiting, moveRail_budgetQueue]
    exact withdraw_sublist s r
  | drain r c _ => exact hs.sublist hrecords (enterDraining_sublist s r c)
  | slewDown r _ _ _ => exact hs.sublist hrecords (enterSlewing_sublist s r)
  | drained r _ _ _ => exact hs.same hrecords (by rw [State.finishDrain, moveRail_budgetQueue, giveBack_budgetQueue])
  | start r n _ _ => exact hs.same hrecords (by rw [State.enterRamping, moveRail_budgetQueue, takeBudget_budgetQueue])
  | backfeed r n _ _ _ _ => exact hs.sublist hrecords (enterFault_sublist (s.takeBudget r n) r .backfeed)
  | raise r n _ _ => exact hs.sublist hrecords (enterSlewing_sublist (s.takeBudget r n) r)
  | wholeFall r level _ _ =>
    have hsub := enterDraining_sublist (s.callBackSlew r level) r .normal
    rw [State.callBackSlew, moveRail_budgetQueue] at hsub
    exact hs.sublist hrecords hsub
  | reconcile => exact hs.reconcile
  | place r => exact hs.placeRequest r
  | pop q rest hq =>
    refine hs.sublist hrecords ?_
    rw [hq]
    exact List.sublist_cons_self q rest

theorem restartIdle_budgetQueue (s : State) (r : Rail) : (s.restartIdle r).budgetQueue = s.budgetQueue := by
  unfold State.restartIdle
  split
  · rw [moveRail_budgetQueue, giveBack_budgetQueue]
  · rfl

theorem restartRails_budgetQueue (s : State) : s.restartRails.budgetQueue = [] := by
  have hfold : ∀ (rs : List Rail) (t : State), (rs.foldl State.restartIdle t).budgetQueue = t.budgetQueue := by
    intro rs
    induction rs with
    | nil => exact fun _ => rfl
    | cons a rs ih => exact fun t => (ih _).trans (restartIdle_budgetQueue t a)
  have hdrained : (s.clearedRails.drainRunning .restart).budgetQueue.Sublist s.clearedRails.budgetQueue := by
    have hkeep : ∀ (rs : List Rail) (t : State), (rs.foldl (fun t r =>
        if (t.rail r).state.running then t.enterDraining r .restart else t) t).budgetQueue.Sublist t.budgetQueue := by
      intro rs
      induction rs with
      | nil => exact fun _ => .refl _
      | cons a rs ih =>
        intro t
        refine (ih _).trans ?_
        dsimp only
        split
        · exact enterDraining_sublist t a .restart
        · exact .refl _
    exact hkeep allRails _
  have hcleared : s.clearedRails.budgetQueue = [] := rfl
  rw [State.restartRails_eq, hfold]
  rw [hcleared] at hdrained
  exact List.sublist_nil.mp hdrained

theorem Act.ordered {s t : State} (h : Act s t) (hs : s.lifecycle = .committed → QueueOrdered s)
    (ht : t.lifecycle = .committed) : QueueOrdered t := by
  have same (hlife : t.lifecycle = s.lifecycle) (hrecords : t.records = s.records)
      (hqueue : t.budgetQueue = s.budgetQueue) : QueueOrdered t := (hs (hlife ▸ ht)).same hrecords hqueue
  have only (ho : OnlyRails s t) (hqueue : t.budgetQueue = s.budgetQueue) : QueueOrdered t :=
    same ho.lifecycle ho.records hqueue
  cases h with
  | move t hm => exact hm.ordered (hs (hm.onlyRails.lifecycle ▸ ht))
  | beside t h => exact same (by rw [h]) (by rw [h]) (by rw [h])
  | record r x hu _ => exact nomatch hu.symm.trans ht
  | part p hu => exact nomatch hu.symm.trans ht
  | claim l r v _ _ => exact same rfl rfl rfl
  | pg r level => exact only (onlyRails_modRail ..) rfl
  | on r _ => exact only (onlyRails_enterOn s r) (enterOn_budgetQueue s r)
  | finish r _ => exact only (onlyRails_modRail ..) rfl
  | fault r k _ =>
    exact (hs ((onlyRails_enterFault s r k).lifecycle ▸ ht)).sublist (onlyRails_enterFault s r k).records
      (enterFault_sublist s r k)
  | clear r _ => exact only (onlyRails_moveRail ..) (moveRail_budgetQueue ..)
  | suspend b => exact only (onlyRails_setSuspended s b) (setSuspended_budgetQueue s b)
  | sides w u => exact same rfl rfl rfl
  | supply st timer => exact same rfl rfl rfl
  | evaluate v _ =>
    have h := evaluateSupply_eq v s
    exact same (by rw [h]) (by rw [h]) (by rw [h])
  | restart => exact .nil (restartRails_budgetQueue s)
  | commit v _ _ => exact .nil (by rw [committed_rest])
  | tick =>
    have h := s.tickTimers_eq
    exact same (by rw [h]) (by rw [h]) (by rw [h])
  | powerOn => exact .nil (by rw [powerOnReset_eq]; rfl)

theorem Acts.ordered {s t : State} (h : Acts s t) (hs : s.lifecycle = .committed → QueueOrdered s) :
    t.lifecycle = .committed → QueueOrdered t :=
  h.keep (I := fun u => u.lifecycle = .committed → QueueOrdered u) (fun _ _ ha hi => ha.ordered hi) hs

end Sys2Proof.Machine
end

/-! ### The grant rule comes to an end with the queue exact (R78 to R83) -/

section
namespace Sys2Proof.Machine

theorem State.queued_iff (s : State) (r : Rail) : s.queued r = true ↔ ∃ q ∈ s.budgetQueue, q.rail = r := by
  unfold State.queued
  simp only [List.any_eq_true, beq_iff_eq]

theorem queued_placeRequest_of_queued {s : State} {q : Rail} (h : s.queued q = true) (r : Rail) :
    (s.placeRequest r).queued q = true := by
  obtain ⟨x, hx, rfl⟩ := (s.queued_iff q).mp h
  unfold State.placeRequest
  split
  · exact (State.queued_iff _ _).mpr ⟨x, (mem_placeEntry _ _ _).mpr (.inr hx), rfl⟩
  · exact h

theorem queued_placeRequest_self {s : State} {r : Rail} (h : s.requestOf r ≠ none) : (s.placeRequest r).queued r = true := by
  by_cases hq : s.queued r = true
  · exact queued_placeRequest_of_queued hq r
  · have hnew : s.newRequest r = s.requestOf r := if_neg hq
    obtain ⟨⟨k, n⟩, hreq⟩ := Option.ne_none_iff_exists'.mp h
    rw [hreq] at hnew
    unfold State.placeRequest
    rw [hnew]
    exact (State.queued_iff _ _).mpr ⟨_, (mem_placeEntry _ _ _).mpr (.inl rfl), rfl⟩

/-- Once every rail's request is placed, every rail that asks has an entry. -/
theorem queued_placeRequests {s : State} {r : Rail} (h : s.requestOf r ≠ none) : s.placeRequests.queued r = true := by
  have hfold : ∀ (rs : List Rail) (t : State), t.requestOf r ≠ none → r ∈ rs ∨ t.queued r = true →
      (rs.foldl State.placeRequest t).queued r = true := by
    intro rs
    induction rs with
    | nil => exact fun t _ ht => ht.resolve_left List.not_mem_nil
    | cons a rs ih =>
      intro t hreq ht
      refine ih _ (by rw [State.requestOf_placeRequest]; exact hreq) ?_
      rcases ht with hmem | ht
      · rcases List.mem_cons.mp hmem with rfl | hmem
        · exact .inr (queued_placeRequest_self hreq)
        · exact .inl hmem
      · exact .inr (queued_placeRequest_of_queued ht a)
  exact hfold allRails s h (.inl (mem_allRails r))

theorem State.requestOf_placeRequests (s : State) (r : Rail) : s.placeRequests.requestOf r = s.requestOf r :=
  State.placeRequests_induction (P := fun t => t.requestOf r = s.requestOf r)
    (fun t q h => (t.requestOf_placeRequest q r).trans h) rfl

/-- A round that no further one follows leaves the queue exact. -/
theorem queueExact_of_grantRound {before : State} {e e1 : Event} (hs : QueueOrdered e.st)
    (h : grantRound before e = (e1, false)) : QueueExact e1.st := by
  unfold grantRound at h
  dsimp only at h
  split at h
  · cases (Prod.mk.inj h).2
  · have hordered : QueueOrdered e.st.reconcile.placeRequests :=
      State.placeRequests_induction (fun _ r h => h.placeRequest r) hs.reconcile
    have hasks : QueueAsks e.st.reconcile.placeRequests := (queueAsks_reconcile e.st).placeRequests
    have hevery (r : Rail) : e.st.reconcile.placeRequests.requestOf r ≠ none →
        e.st.reconcile.placeRequests.queued r = true := fun hr =>
      queued_placeRequests (by rwa [State.requestOf_placeRequests] at hr)
    generalize e.st.reconcile.placeRequests = s2 at h hordered hasks hevery
    have hkept : QueueKept s2 :=
      ⟨fun q hq => ⟨hasks q hq, hordered.priority q hq⟩, hordered.once, hevery, hordered.order⟩
    split at h
    · next hnil =>
      obtain rfl := (Prod.mk.inj h).1
      refine ⟨hkept, fun q hq => ?_⟩
      rw [hnil] at hq
      cases hq
    · next q rest hcons =>
      split at h
      · cases (Prod.mk.inj h).2
      · next hfits =>
        obtain rfl := (Prod.mk.inj h).1
        refine ⟨hkept, fun x hx => ?_⟩
        rw [hcons] at hx
        obtain rfl : q = x := Option.some.inj hx
        have hnot := mt (s2.fits_iff q.amount).mpr hfits
        exact ⟨Nat.pos_of_ne_zero fun h0 => hnot (.inl h0), Nat.lt_of_not_le fun hle => hnot (.inr hle)⟩

/-! #### Each grant spends a rail -/

/-- A rail that the arbiter has no more to grant in the event: it ramps, slews, drains unfinished, or is in FAULT. -/
def RailRuntime.spent (x : RailRuntime) : Bool :=
  match x.state with
  | .ramping => true
  | .slewing => true
  | .fault => true
  | .draining => !x.drainFinished
  | _ => false

theorem RailRuntime.spent_iff (x : RailRuntime) :
    x.spent = true ↔ x.state = .ramping ∨ x.state = .slewing ∨ x.Frozen := by
  unfold RailRuntime.spent RailRuntime.Frozen
  cases x.state <;> simp

theorem RailStep.spent {r : Rail} {rec : RailRecord} {asks : Option (GrantKind × Nat)} {x y : RailRuntime}
    (h : RailStep r rec asks x y) (hx : x.spent = true) : y.spent = true := by
  have hdrained {z : RailRuntime} {c : DrainCause} (hy : SameButHolds (z.toDraining r rec c) y) : y.spent = true := by
    rw [hy]
    rfl
  rcases (x.spent_iff).mp hx with hs | hs | hs
  · cases h with
    | aims h =>
      rw [RailRuntime.spent_iff, h.state]
      exact .inl hs
    | drain c _ hy => exact hdrained hy
    | wait h => rw [hs] at h; cases h
    | unwait h => rw [hs] at h; cases h
    | slewDown h => rw [hs] at h; cases h
    | drained h => rw [hs] at h; cases h
    | start n _ _ h => rw [hs] at h; cases h
    | backfeed n _ _ _ h => rw [hs] at h; cases h
    | raise n _ _ h => rw [hs] at h; cases h
    | wholeFall level _ _ hy => exact hdrained hy
  · cases h with
    | aims h =>
      rw [RailRuntime.spent_iff, h.state]
      exact .inr (.inl hs)
    | drain c _ hy => exact hdrained hy
    | wait h => rw [hs] at h; cases h
    | unwait h => rw [hs] at h; cases h
    | slewDown h => rw [hs] at h; cases h
    | drained h => rw [hs] at h; cases h
    | start n _ _ h => rw [hs] at h; cases h
    | backfeed n _ _ _ h => rw [hs] at h; cases h
    | raise n _ _ h => rw [hs] at h; cases h
    | wholeFall level _ _ hy => exact hdrained hy
  · have haims := h.of_frozen hs
    rw [RailRuntime.spent_iff]
    unfold RailRuntime.Frozen
    rw [haims.state, haims.drainFinished]
    exact .inr (.inr hs)

theorem Moves.spent {s t : State} (h : Moves s t) {r : Rail} (hr : (s.rail r).spent = true) : (t.rail r).spent = true :=
  h.keepRail (P := fun x => x.spent = true) (fun _ _ _ hstep hx => hstep.spent hx) rfl hr

/-- A rail that asks is not spent. -/
theorem State.spent_of_requestOf {s : State} {r : Rail} {a : GrantKind × Nat} (h : s.requestOf r = some a) :
    (s.rail r).spent = false := by
  obtain ⟨k, n⟩ := a
  unfold RailRuntime.spent
  cases k with
  | start => rw [State.waiting_of_start h]
  | raise => rw [State.on_of_raise h]

/-- A grant spends the rail it is handed to. -/
theorem spent_handGrant (before : State) {r : Rail} {k : GrantKind} {n : Nat} (e : Event) :
    ((handGrant before r k n e).st.rail r).spent = true := by
  unfold handGrant
  cases k with
  | start =>
    dsimp only
    split
    · have hmoves : Moves ((e.st.takeBudget r n).enterFault r .backfeed)
          (takeWholeFalls before (faultRail r .backfeed (e.mapState fun s => s.takeBudget r n))).st :=
        (moves_faultRail r .backfeed (e.mapState fun s => s.takeBudget r n)).trans (moves_takeWholeFalls before _)
      refine hmoves.spent ?_
      rw [(becomes_enterFault (e.st.takeBudget r n) r .backfeed).self]
      rfl
    · change (((e.st.takeBudget r n).enterRamping r).rail r).spent = true
      rw [(becomes_enterRamping (e.st.takeBudget r n) r).self]
      rfl
  | raise =>
    change (((e.st.takeBudget r n).enterSlewing r).rail r).spent = true
    rw [(becomes_enterSlewing (e.st.takeBudget r n) r).self]
    rfl

/-- What a round of the grant rule does, where a further one follows: a rail that asks is granted what it asks for, in a state
that differs from the one before the round in the queue alone. -/
theorem grantRound_cases (before : State) (e : Event) :
    (grantRound before e).2 = false ∨ ∃ (s : State) (r : Rail) (k : GrantKind) (n : Nat),
      OnlyRails e.st s ∧ s.rails = e.st.rails ∧ s.allocated = e.st.allocated ∧ s.requestOf r = some (k, n) ∧ s.fits n = true
        ∧ grantRound before e = (handGrant before r k n { e with st := s }, true) := by
  unfold grantRound
  dsimp only
  split
  · next r k hzero =>
    exact .inr ⟨_, r, k, 0, onlyRails_reconcile e.st, rfl, rfl, State.requestOf_of_zeroRequest hzero, State.fits_zero _, rfl⟩
  · have honly : OnlyRails e.st e.st.reconcile.placeRequests :=
      (onlyRails_reconcile e.st).trans (onlyRails_placeRequests e.st.reconcile)
    obtain ⟨hrails, hallocated⟩ := e.st.reconcile.placeRequests_rails
    have hasks : QueueAsks e.st.reconcile.placeRequests := (queueAsks_reconcile e.st).placeRequests
    generalize e.st.reconcile.placeRequests = s2 at honly hrails hallocated hasks
    split
    · exact .inl rfl
    · next q rest hcons =>
      split
      · next hfits =>
        exact .inr ⟨{ s2 with budgetQueue := rest }, q.rail, q.kind, q.amount, honly.trans (onlyRails_setQueue s2 rest), hrails,
          hallocated, hasks q (hcons ▸ List.mem_cons_self), hfits, rfl⟩
      · exact .inl rfl

/-- How many rails the arbiter may still grant to. -/
def State.unspent (s : State) : Nat := allRails.countP fun r => !(s.rail r).spent

theorem State.unspent_le (s : State) : s.unspent ≤ 16 := List.countP_le_length

/-- A round that a further one follows leaves fewer rails to grant to. -/
theorem unspent_grantRound (before : State) {e : Event} (h : (grantRound before e).2 = true) :
    (grantRound before e).1.st.unspent < e.st.unspent := by
  have hmoves := moves_grantRound before e
  rcases grantRound_cases before e with hfalse | ⟨s, r, k, n, -, hrails, -, hreq, -, hround⟩
  · rw [hfalse] at h
    cases h
  · have hbefore : (e.st.rail r).spent = false := by
      have hrail : s.rail r = e.st.rail r := by unfold State.rail; rw [hrails]
      rw [← hrail]
      exact State.spent_of_requestOf hreq
    have hafter : ((grantRound before e).1.st.rail r).spent = true := by
      rw [hround]
      exact spent_handGrant before { e with st := s }
    generalize (grantRound before e).1.st = t at hmoves hafter
    have hle : t.unspent ≤ allRails.countP fun q => !(e.st.rail q).spent && decide (q ≠ r) :=
      List.countP_mono_left fun q _ hq => by
        have hq' : (e.st.rail q).spent = false := Bool.eq_false_iff.mpr fun hs => by
          rw [hmoves.spent hs] at hq
          cases hq
        have hne : q ≠ r := fun hqr => by
          rw [hqr, hafter] at hq
          cases hq
        rw [hq', decide_eq_true hne]
        rfl
    have hone := countP_add_one (p := fun q => !(e.st.rail q).spent) (q := fun q => !(e.st.rail q).spent && decide (q ≠ r))
      (a := r) (by rw [hbefore]; rfl) (by simp) (fun b hb => by simp [hb]) nodup_allRails (mem_allRails r)
    unfold State.unspent at hle ⊢
    omega

/-- Repeated often enough, the rounds end with one that no further one follows. -/
theorem repeatRounds_ends (before : State) {n : Nat} {e : Event} (h : e.st.unspent < n) :
    ∃ e0 e1, Moves e.st e0.st ∧ grantRound before e0 = (e1, false) ∧ repeatRounds (grantRound before) n e = e1 := by
  induction n generalizing e with
  | zero => omega
  | succ n ih =>
    have hmoves := moves_grantRound before e
    have hless := unspent_grantRound before (e := e)
    unfold repeatRounds
    cases hround : grantRound before e with
    | mk e1 b =>
      rw [hround] at hmoves hless
      cases b with
      | false => exact ⟨e, e1, .refl, hround, rfl⟩
      | true =>
        have hlt := hless rfl
        obtain ⟨e0, e2, hm, hr, he⟩ := ih (e := e1) (by dsimp only at hlt; omega)
        exact ⟨e0, e2, hmoves.trans hm, hr, he⟩

/-- After the grants of an event the queue is exact. -/
theorem queueExact_granted (before : State) {e : Event} (hs : QueueOrdered e.st) : QueueExact (e.granted before).st := by
  have hlt : ({ e with log := [] } : Event).st.unspent < Config.grantRounds :=
    Nat.lt_of_le_of_lt (State.unspent_le _) (by decide)
  obtain ⟨e0, e1, hmoves, hround, hend⟩ := repeatRounds_ends before hlt
  have hordered : QueueOrdered e0.st := hmoves.keep (fun _ _ hm h => hm.ordered h) hs
  have hgranted : e.granted before = e1 := hend
  rw [hgranted]
  exact queueExact_of_grantRound hordered hround

end Sys2Proof.Machine
end

/-! ### The course of a command at the rails -/

section
namespace Sys2Proof.Machine

/-- What a command of any part may write ahead of an event at the rails. -/
inductive Light (s t : State) : Prop where
  | beside :
      t =
        { s with
          pending := t.pending, sessions := t.sessions, links := t.links, timestamp := t.timestamp, resetn := t.resetn
          sense := t.sense } → Light s t
  | pg (r : Rail) (level : Line) : Beside (s.modRail r fun x => { x with pg := level }) t → Light s t
  | sides (w u : Side) :
      Beside { s with supply := { s.supply with warnOut := w, critOut := u } } t → Light s t

/-- What a command may write without an event at the rails. -/
inductive Quiet (s t : State) : Prop where
  | light : Light s t → Quiet s t
  | table : s.lifecycle = .uncommitted → Quiet s t
  | powerOn : Beside (powerOnReset s) t → Quiet s t

/-- The event of a rail that reaches ON, its target examined (R33). -/
def onExamined (r : Rail) (s : State) : Event :=
  examineTarget r ⟨s.enterOn r, [.enteredOn r ((s.enterOn r).rail r).level]⟩

/-- What an event at the rails begins with: the session that a slot is reserved for, the announcements that lead, the state
found, and the announcements made already. -/
inductive Onset (s : State) : Option Link → List Announcement → State → List Announcement → Prop where
  | claim (reserve : Option Link) (l : Link) (r : Rail) (v : Nat) : v ≤ (s.record r).levelCount.toNat →
      ((s.record r).defined = false → v = 0) → Onset s reserve [] (s.setClaim l r v) []
  | without (l : Link) (st : SessionState) : Onset s none [] (s.without l st) []
  | on (r : Rail) : (s.rail r).state = .ramping ∨ (s.rail r).state = .slewing →
      Onset s none [] (onExamined r s).st (onExamined r s).log
  | expired (r : Rail) : (s.rail r).state = .draining →
      Onset s none [] (s.modRail r fun x => { x with timer := .stopped, drainFinished := true }) []
  | deferred (r : Rail) : (s.rail r).state = .draining → (s.rail r).drainFinished = true → s.heldByDraining r = false →
      Onset s none [] (s.finishDrain r) [.enteredOff r]
  | cleared (l : Link) (r : Rail) : (s.rail r).faultLatch = true →
      Onset s none []
        (s.moveRail r fun y =>
          { y with faultLatch := false, level := 0, state := if y.target = 0 then .off else .waiting })
        [.faultCleared r (s.rail r).faultKind l]
  | supply (st : SupplyState) : s.supply.active = true → s.supply.state ≠ st →
      (st = .recovering → s.supply.state ≠ .normal) → Onset s none (supplyChanged st s).log (supplyFound st s) []
  | warm (v : Nat) : Onset s none [] (restartSupply v s.restartRails) []

/-- The course of a command: quiet, an event at the rails, or an entry into FAULT. -/
inductive Course (s t : State) : Prop where
  | quiet : Quiet s t → Course s t
  | event (a m : State) (reserve : Option Link) (lead log : List Announcement) : Light s a → Onset a reserve lead m log →
      Beside (railTurn reserve lead ⟨m, log⟩) t → Course s t
  | fault (a : State) (r : Rail) (k : FaultKind) : Light s a →
      (a.rail r).state.running = true ∨ (a.rail r).state = .draining → Beside (fail r k a) t → Course s t

theorem Beside.light {s t : State} (h : Beside s t) : Light s t := .beside (by rw [h])

theorem Light.refl (s : State) : Light s s := (Beside.refl s).light

theorem Beside.quiet {s t : State} (h : Beside s t) : Quiet s t := .light h.light

theorem Quiet.refl (s : State) : Quiet s s := (Beside.refl s).quiet

theorem Beside.modRail {s t : State} (h : Beside s t) (r : Rail) (f : RailRuntime → RailRuntime) :
    Beside (s.modRail r f) (t.modRail r f) := by
  rw [h]
  rfl

theorem Beside.powerOnReset {s t : State} (h : Beside s t) : Beside (powerOnReset s) (powerOnReset t) := by
  rw [powerOnReset_eq, powerOnReset_eq, h]
  rfl

theorem Light.ahead {s a t : State} (h : Beside s a) (h' : Light a t) : Light s t := by
  cases h' with
  | beside he => exact .beside (by rw [he, h])
  | pg r level hb => exact .pg r level ((h.modRail r _).trans hb)
  | sides w u hb => exact .sides w u (.trans (by rw [h]; rfl) hb)

theorem Light.after {s a t : State} (h : Light s a) (h' : Beside a t) : Light s t := by
  cases h with
  | beside he => exact .beside (by rw [h', he])
  | pg r level hb => exact .pg r level (hb.trans h')
  | sides w u hb => exact .sides w u (hb.trans h')

theorem Quiet.ahead {s a t : State} (h : Beside s a) (h' : Quiet a t) : Quiet s t := by
  cases h' with
  | light hl => exact .light (hl.ahead h)
  | table hu => exact .table (by rw [h] at hu; exact hu)
  | powerOn hb => exact .powerOn (h.powerOnReset.trans hb)

theorem Quiet.after {s a t : State} (h : Quiet s a) (h' : Beside a t) : Quiet s t := by
  cases h with
  | light hl => exact .light (hl.after h')
  | table hu => exact .table hu
  | powerOn hb => exact .powerOn (hb.trans h')

theorem Course.refl (s : State) : Course s s := .quiet (.refl s)

theorem Course.ahead {s a t : State} (h : Beside s a) (h' : Course a t) : Course s t := by
  cases h' with
  | quiet hq => exact .quiet (hq.ahead h)
  | event b m reserve lead log hq ho hb => exact .event b m reserve lead log (hq.ahead h) ho hb
  | fault b r k hq hr hb => exact .fault b r k (hq.ahead h) hr hb

theorem Course.after {s a t : State} (h : Course s a) (h' : Beside a t) : Course s t := by
  cases h with
  | quiet hq => exact .quiet (hq.after h')
  | event b m reserve lead log hq ho hb => exact .event b m reserve lead log hq ho (hb.trans h')
  | fault b r k hq hr hb => exact .fault b r k hq hr (hb.trans h')

theorem Beside.course {s t : State} (h : Beside s t) : Course s t := .quiet h.quiet

/-- An event that the command begins with. -/
theorem Onset.course {s m : State} {reserve : Option Link} {lead log : List Announcement}
    (h : Onset s reserve lead m log) : Course s (railTurn reserve lead ⟨m, log⟩) :=
  .event s m reserve lead log (.refl s) h (.refl _)

theorem course_fail {s : State} {r : Rail} (k : FaultKind)
    (h : (s.rail r).state.running = true ∨ (s.rail r).state = .draining) : Course s (fail r k s) :=
  .fault s r k (.refl s) h (.refl _)

theorem course_reachOn {s : State} {r : Rail} (h : (s.rail r).state = .ramping ∨ (s.rail r).state = .slewing) :
    Course s (reachOn r s) := (Onset.on r h).course

theorem course_rewriteClaim (reserve : Option Link) (l : Link) {r : Rail} {v : Nat} {s : State}
    (hv : v ≤ (s.record r).levelCount.toNat) (hd : (s.record r).defined = false → v = 0) :
    Course s (rewriteClaim reserve l r v s) := (Onset.claim reserve l r v hv hd).course

theorem course_teardown (l : Link) (st : SessionState) (s : State) : Course s (teardown l st s) := by
  rw [teardown_eq]
  exact (Onset.without l st).course

theorem course_changeSupply {st : SupplyState} {s : State} (ha : s.supply.active = true) (hst : s.supply.state ≠ st)
    (hr : st = .recovering → s.supply.state ≠ .normal) : Course s (changeSupply st s) := by
  rw [changeSupply_eq_railTurn]
  exact (Onset.supply st ha hst hr).course

/-! #### Requests -/

theorem course_serve {s : State} {k : Kind} {l : Link} {f : Frame} {body : State → Answer}
    (h : ∀ t : State, lifecycleRefusal k t.lifecycle = none → Course t (body t).st) : Course s (s.serve k l f body) := by
  have hlease := beside_renewLease s l
  unfold State.serve
  split
  · split
    · exact (beside_respond ..).course
    · split
      · exact (beside_respond ..).course
      · dsimp only
        split
        · exact .ahead hlease (beside_respond ..).course
        · next hl => exact .ahead hlease ((h _ hl).after (beside_respond ..))
  · exact .refl s

theorem course_claimTaken {l : Link} {r : Rail} {level : Nat} (tag : Byte) {s : State}
    (hlevel : level ≤ (s.record r).levelCount.toNat) (hr : (s.record r).defined = true) :
    Course s (claimTaken l r level tag s) := by
  unfold claimTaken
  dsimp only
  have hclose := beside_closeOutstanding l r .superseded s
  have hrecord := record_closeOutstanding l r r .superseded s
  generalize closeOutstanding l r .superseded s = s1 at hclose hrecord
  have hclaim : Course s1 (rewriteClaim (some l) l r level s1) :=
    course_rewriteClaim (some l) l (by rwa [hrecord]) (by rw [hrecord, hr]; nofun)
  exact .ahead hclose (hclaim.after (beside_setUp ..))

theorem course_claimAnswer (l : Link) (f : Frame) (s : State) : Course s (claimAnswer l f s).st := by
  unfold claimAnswer
  split
  · exact .refl s
  · next r hr =>
    dsimp only
    split
    · exact .refl s
    · next hlevel =>
      split
      · exact .refl s
      · dsimp only
        exact course_claimTaken f.tag (Nat.le_of_not_lt (not_or.mp hlevel).2) (State.defined_of_namedRail hr)

theorem course_release (reserve : Option Link) (l : Link) (r : Rail) (s : State) : Course s (rewriteClaim reserve l r 0 s) :=
  course_rewriteClaim reserve l (Nat.zero_le _) fun _ => rfl

theorem course_releaseAnswer (l : Link) (f : Frame) (s : State) : Course s (releaseAnswer l f s).st := by
  unfold releaseAnswer
  split
  · exact .refl s
  · split
    · dsimp only
      unfold releaseNow
      dsimp only
      split
      · exact .ahead (beside_closeOutstanding ..) (course_release ..)
      · exact course_release ..
    · split
      · split
        · exact .refl s
        · dsimp only
          unfold releaseWaiting
          dsimp only
          exact .ahead (beside_closeOutstanding ..) ((course_release ..).after (beside_setUp ..))
      · exact .refl s

theorem course_clearFaultAnswer (l : Link) (f : Frame) (s : State) : Course s (clearFaultAnswer l f s).st := by
  unfold clearFaultAnswer
  split
  · exact .refl s
  · next r _ =>
    dsimp only
    split
    · exact .refl s
    · split
      · exact .refl s
      · next hlatch =>
        split
        · exact .refl s
        · dsimp only
          unfold clearFaultTaken
          exact (Onset.cleared l r (by simpa using hlatch)).course

theorem course_fetchAnswer (l : Link) (s : State) : Course s (fetchAnswer l s).st := by
  unfold fetchAnswer
  dsimp only
  split
  · dsimp only
    exact (beside_modSession ..).course
  · dsimp only
    exact (beside_modSession ..).course

theorem course_attachAnswer (l : Link) (f : Frame) (s : State) : Course s (attachAnswer l f s).st := by
  unfold attachAnswer
  dsimp only
  split
  · exact .refl s
  · dsimp only
    exact (beside_modSession ..).course

theorem course_detachAnswer (l : Link) (s : State) : Course s (detachAnswer l s).st := by
  unfold detachAnswer
  split
  · dsimp only
    exact course_teardown l .detached s
  · dsimp only
    exact (beside_modSession ..).course

theorem course_queryRailAnswer (l : Link) (f : Frame) (s : State) : Course s (queryRailAnswer l f s).st := by
  unfold queryRailAnswer
  split <;> exact .refl s

theorem course_readRailAnswer (f : Frame) (s : State) : Course s (readRailAnswer f s).st := by
  unfold readRailAnswer
  split <;> exact .refl s

/-! #### Every command -/

theorem course_pgChange (r : Rail) (level : Line) (s : State) : Course s (pgChange r level s) := by
  have hpg : Light s (s.modRail r fun x => { x with pg := level }) := .pg r level (.refl _)
  have hstate : ((s.modRail r fun x => { x with pg := level }).rail r).state = (s.rail r).state := by simp
  unfold pgChange
  split
  · exact .refl s
  · dsimp only
    generalize (s.modRail r fun x => { x with pg := level }) = a at hpg hstate
    split
    · split
      · next hs _ => exact .event a _ none [] _ hpg (.on r (.inl (hstate.trans hs))) (.refl _)
      · next hs _ => exact .fault a r .pgLost hpg (.inl (by rw [hstate, hs]; rfl)) (.refl _)
      · exact .quiet (.light hpg)
    · exact .quiet (.light hpg)

theorem course_rampExpiry (r : Rail) (s : State) : Course s (rampExpiry r s) := by
  unfold rampExpiry
  split
  · next h =>
    split
    · exact course_fail .rampTimeout (.inl (by rw [h.1]; rfl))
    · exact course_reachOn (.inl h.1)
  · exact .refl s

theorem course_slewExpiry (r : Rail) (s : State) : Course s (slewExpiry r s) := by
  unfold slewExpiry
  split
  · next h =>
    split
    · exact course_fail .slewFail (.inl (by rw [h.1]; rfl))
    · exact course_reachOn (.inr h.1)
  · exact .refl s

theorem course_drainExpiry (r : Rail) (s : State) : Course s (drainExpiry r s) := by
  unfold drainExpiry
  split
  · next h =>
    split
    · exact course_fail .drainStuck (.inr h.1)
    · exact (Onset.expired r h.1).course
  · exact .refl s

theorem course_deferredOffTaken (r : Rail) (s : State) : Course s (deferredOffTaken r s) := by
  unfold deferredOffTaken
  dsimp only
  split
  · next h =>
    obtain ⟨hs, hf, hd⟩ := h
    exact (Onset.deferred r hs hf hd).course
  · exact .refl s

theorem light_sides (s : State) (w u : Side) :
    Light s { s with supply := { s.supply with warnOut := w, critOut := u } } := .sides w u (.refl _)

/-- A change of the supply state after a comparator output has been set. -/
theorem course_crossed {s : State} (ha : s.supply.active = true) (w u : Side) {st : SupplyState} (hst : s.supply.state ≠ st)
    (hr : st = .recovering → s.supply.state ≠ .normal) :
    Course s (changeSupply st { s with supply := { s.supply with warnOut := w, critOut := u } }) := by
  rw [changeSupply_eq_railTurn]
  exact .event _ _ _ _ _ (light_sides s w u) (.supply st ha hst hr) (.refl _)

theorem course_fallBelowWarn (s : State) : Course s (fallBelowWarn s) := by
  unfold fallBelowWarn
  split
  · next h =>
    dsimp only
    split
    · next hs => exact course_crossed h.1 .below s.supply.critOut (by rw [hs]; nofun) nofun
    · next hs => exact course_crossed h.1 .below s.supply.critOut (by rw [hs]; nofun) nofun
    · exact .quiet (.light (light_sides ..))
    · exact .quiet (.light (light_sides ..))
  · exact .refl s

theorem course_fallBelowCrit (s : State) : Course s (fallBelowCrit s) := by
  unfold fallBelowCrit
  split
  · next h =>
    dsimp only
    split
    · next hs => exact course_crossed h.1 s.supply.warnOut .below (by rw [hs]; nofun) nofun
    · next hs => exact course_crossed h.1 s.supply.warnOut .below (by rw [hs]; nofun) nofun
    · next hs => exact course_crossed h.1 s.supply.warnOut .below (by rw [hs]; nofun) nofun
    · exact .quiet (.light (light_sides ..))
  · exact .refl s

theorem course_riseAboveCritBand (s : State) : Course s (riseAboveCritBand s) := by
  unfold riseAboveCritBand
  split
  · next h =>
    dsimp only
    split
    · next hs => exact course_crossed h.1 s.supply.warnOut .above (by rw [hs]; nofun) nofun
    · exact .quiet (.light (light_sides ..))
    · exact .quiet (.light (light_sides ..))
    · exact .quiet (.light (light_sides ..))
  · exact .refl s

theorem course_riseAboveWarnBand (s : State) : Course s (riseAboveWarnBand s) := by
  unfold riseAboveWarnBand
  split
  · next h =>
    dsimp only
    split
    · next hs => exact course_crossed h.1 .above s.supply.critOut (by rw [hs]; nofun) fun _ => by rw [hs]; nofun
    · next hs => exact course_crossed h.1 .above s.supply.critOut (by rw [hs]; nofun) fun _ => by rw [hs]; nofun
    · exact .quiet (.light (light_sides ..))
    · exact .quiet (.light (light_sides ..))
  · exact .refl s

theorem course_holdoffExpiry (s : State) : Course s (holdoffExpiry s) := by
  unfold holdoffExpiry
  split
  · next h => exact course_changeSupply h.1 (by rw [h.2.1]; nofun) nofun
  · exact .refl s

theorem course_linkReset (l : Link) (s : State) : Course s (linkReset l s) := by
  unfold linkReset
  split
  · exact .refl s
  · exact .ahead (beside_modLink ..) (course_teardown ..)

theorem beside_sense (s : State) (v : Nat) : Beside s { s with sense := v } := rfl

theorem course_warmReset (v : Nat) (s : State) : Course s (warmReset v s) := by
  unfold warmReset
  split
  · exact (beside_sense s v).course
  · have hquiet : Light s s.forgetMasters := .beside (by
      have h := forgetMasters_rest s
      generalize s.forgetMasters = a at h
      rw [h])
    generalize s.forgetMasters = a at hquiet
    exact .event a _ none [] _ hquiet (.warm v) (.refl _)

/-- Every command but a tick and a grant takes one of these courses. -/
theorem exec_course (c : Instr) (s : State) :
    ∃ t, exec c s = .next t ∧ (Course s t
      ∨ (c = .timestampTick ∧ t = { s.tickTimers with timestamp := s.timestamp + 1 }) ∨ ∃ r k, t = grantHead r k s) := by
  cases c with
  | attach l f => exact ⟨_, rfl, .inl (course_serve fun t _ => course_attachAnswer l f t)⟩
  | detach l f => exact ⟨_, rfl, .inl (course_serve fun t _ => course_detachAnswer l t)⟩
  | renew l f => exact ⟨_, rfl, .inl (course_serve fun t _ => .refl t)⟩
  | claim l f => exact ⟨_, rfl, .inl (course_serve fun t _ => course_claimAnswer l f t)⟩
  | releaseWithoutWait l f => exact ⟨_, rfl, .inl (course_serve fun t _ => course_releaseAnswer l f t)⟩
  | releaseWithWait l f => exact ⟨_, rfl, .inl (course_serve fun t _ => course_releaseAnswer l f t)⟩
  | clearFault l f => exact ⟨_, rfl, .inl (course_serve fun t _ => course_clearFaultAnswer l f t)⟩
  | fetchEvent l f => exact ⟨_, rfl, .inl (course_serve fun t _ => course_fetchAnswer l t)⟩
  | queryRail l f => exact ⟨_, rfl, .inl (course_serve fun t _ => course_queryRailAnswer l f t)⟩
  | queryPart l f => exact ⟨_, rfl, .inl (course_serve fun t _ => .refl t)⟩
  | writeRail l f =>
    exact ⟨_, rfl, .inl (course_serve fun t h => .quiet (.table (uncommitted_of_lifecycleRefusal (.inl rfl) h)))⟩
  | writePart l f =>
    exact ⟨_, rfl, .inl (course_serve fun t h => .quiet (.table (uncommitted_of_lifecycleRefusal (.inr (.inl rfl)) h)))⟩
  | readRail l f => exact ⟨_, rfl, .inl (course_serve fun t _ => course_readRailAnswer f t)⟩
  | readPart l f => exact ⟨_, rfl, .inl (course_serve fun t _ => .refl t)⟩
  | commit l f v =>
    exact ⟨_, rfl, .inl (.ahead (beside_sense s v)
      (course_serve fun t h => .quiet (.table (uncommitted_of_lifecycleRefusal (.inr (.inr rfl)) h))))⟩
  | frameDiscard l => exact ⟨_, rfl, .inl (beside_csnRise l s).course⟩
  | pgChangeTaken r level => exact ⟨_, rfl, .inl (course_pgChange r level s)⟩
  | rampTimeExpiry r => exact ⟨_, rfl, .inl (course_rampExpiry r s)⟩
  | slewTimeExpiry r => exact ⟨_, rfl, .inl (course_slewExpiry r s)⟩
  | drainTimeExpiry r => exact ⟨_, rfl, .inl (course_drainExpiry r s)⟩
  | deferredOff r => exact ⟨_, rfl, .inl (course_deferredOffTaken r s)⟩
  | startGrant r => exact ⟨_, rfl, .inr (.inr ⟨r, .start, rfl⟩)⟩
  | raiseGrant r => exact ⟨_, rfl, .inr (.inr ⟨r, .raise, rfl⟩)⟩
  | holdoffExpiry => exact ⟨_, rfl, .inl (course_holdoffExpiry s)⟩
  | leaseExpiry l =>
    refine ⟨_, rfl, .inl ?_⟩
    split
    · exact course_teardown l .expired s
    · exact .refl s
  | fallBelowWarn v => exact ⟨_, rfl, .inl (.ahead (beside_sense s v) (course_fallBelowWarn { s with sense := v }))⟩
  | fallBelowCrit v => exact ⟨_, rfl, .inl (.ahead (beside_sense s v) (course_fallBelowCrit { s with sense := v }))⟩
  | riseAboveCritBand v => exact ⟨_, rfl, .inl (.ahead (beside_sense s v) (course_riseAboveCritBand { s with sense := v }))⟩
  | riseAboveWarnBand v => exact ⟨_, rfl, .inl (.ahead (beside_sense s v) (course_riseAboveWarnBand { s with sense := v }))⟩
  | linkReset l => exact ⟨_, rfl, .inl (course_linkReset l s)⟩
  | linkResetRelease l => exact ⟨_, rfl, .inl (beside_linkResetRelease l s).course⟩
  | warmReset v => exact ⟨_, rfl, .inl (course_warmReset v s)⟩
  | warmResetRelease => exact ⟨_, rfl, .inl (.quiet (.light (.beside rfl)))⟩
  | powerOnReset => exact ⟨_, rfl, .inl (.quiet (.powerOn (.refl _)))⟩
  | timestampTick => exact ⟨_, rfl, .inr (.inl ⟨rfl, rfl⟩)⟩
  | csnFall l => exact ⟨_, rfl, .inl (beside_csnFall l s).course⟩
  | responseEnd l => exact ⟨_, rfl, .inl (beside_responseEnd l s).course⟩
  | csnRise l => exact ⟨_, rfl, .inl (beside_csnRise l s).course⟩

theorem course_of_exec {c : Instr} {s t : State} (h : exec c s = .next t) : Course s t
    ∨ (c = .timestampTick ∧ t = { s.tickTimers with timestamp := s.timestamp + 1 }) ∨ ∃ r k, t = grantHead r k s := by
  obtain ⟨u, hu, hcourse⟩ := exec_course c s
  cases hu.symm.trans h
  exact hcourse

end Sys2Proof.Machine
end

/-! ### The queue after every command (R79 to R83) -/

section
namespace Sys2Proof.Machine

/-- What the arbiter looks at is the same in both states. -/
structure SameArbiter (s t : State) : Prop where
  queue : t.budgetQueue = s.budgetQueue
  allocated : t.allocated = s.allocated
  limit : t.limit = s.limit
  records : t.records = s.records
  asks : ∀ r : Rail, t.requestOf r = s.requestOf r

theorem QueueKept.same {s t : State} (hs : QueueKept s) (h : SameArbiter s t) : QueueKept t where
  entry q hq := by
    rw [h.queue] at hq
    rw [h.asks]
    unfold State.record
    rw [h.records]
    exact hs.entry q hq
  once := by rw [h.queue]; exact hs.once
  every r hr := by
    rw [h.asks] at hr
    unfold State.queued
    rw [h.queue]
    exact hs.every r hr
  order := by rw [h.queue]; exact hs.order

theorem HeadWaits.same {s t : State} (hs : HeadWaits s) (h : SameArbiter s t) : HeadWaits t := fun q hq => by
  rw [h.queue] at hq
  rw [h.limit, h.allocated]
  exact hs q hq

theorem QueueExact.same {s t : State} (hs : QueueExact s) (h : SameArbiter s t) : QueueExact t :=
  ⟨hs.toQueueKept.same h, hs.head.same h⟩

/-- What a rail asks is read from its state, level and target, from the states of its parents, and from the supply state. -/
theorem State.requestOf_congr {s t : State} (hrecords : t.records = s.records) (hsupply : t.supply.state = s.supply.state)
    (hstate : ∀ q, (t.rail q).state = (s.rail q).state) (hlevel : ∀ q, (t.rail q).level = (s.rail q).level)
    (htarget : ∀ q, (t.rail q).target = (s.rail q).target) (r : Rail) : t.requestOf r = s.requestOf r := by
  have hrecord (q : Rail) : t.record q = s.record q := by unfold State.record; rw [hrecords]
  have hparents : t.parentsOf r = s.parentsOf r := by unfold State.parentsOf; rw [hrecord]
  unfold State.requestOf State.ready
  simp only [hparents, hrecord, hstate, hlevel, htarget, hsupply]

theorem Beside.sameArbiter {s t : State} (h : Beside s t) : SameArbiter s t := by
  refine ⟨by rw [h], by rw [h], by rw [h], by rw [h], fun r => ?_⟩
  rw [h]
  rfl

theorem SameArbiter.trans {s t u : State} (h : SameArbiter s t) (h' : SameArbiter t u) : SameArbiter s u :=
  ⟨h'.queue.trans h.queue, h'.allocated.trans h.allocated, h'.limit.trans h.limit, h'.records.trans h.records,
    fun r => (h'.asks r).trans (h.asks r)⟩

theorem sameArbiter_pg (s : State) (r : Rail) (level : Line) : SameArbiter s (s.modRail r fun x => { x with pg := level }) := by
  have hrail (q : Rail) : (s.modRail r fun x => { x with pg := level }).rail q =
      { s.rail q with pg := if q = r then level else (s.rail q).pg } := by
    rw [State.rail_modRail]
    split
    · next h => rw [h]
    · rfl
  exact ⟨rfl, rfl, rfl, rfl, State.requestOf_congr rfl rfl (fun q => by rw [hrail]) (fun q => by rw [hrail])
    fun q => by rw [hrail]⟩

theorem sameArbiter_tick (s : State) : SameArbiter s { s.tickTimers with timestamp := s.timestamp + 1 } := by
  have h := s.tickTimers_eq
  have hrail := s.rail_tickTimers
  generalize s.tickTimers = t at h hrail
  refine ⟨by rw [h], by rw [h], by rw [h], by rw [h], State.requestOf_congr (by rw [h]) (by rw [h]) (fun q => ?_) (fun q => ?_)
    fun q => ?_⟩
  · change (t.rail q).state = _
    rw [hrail]
  · change (t.rail q).level = _
    rw [hrail]
  · change (t.rail q).target = _
    rw [hrail]

theorem Light.sameArbiter {s t : State} (h : Light s t) : SameArbiter s t := by
  cases h with
  | beside he =>
    refine ⟨by rw [he], by rw [he], by rw [he], by rw [he], fun r => ?_⟩
    rw [he]
    rfl
  | pg r level hb => exact (sameArbiter_pg s r level).trans hb.sameArbiter
  | sides w u hb =>
    exact .trans (t := { s with supply := { s.supply with warnOut := w, critOut := u } })
      ⟨rfl, rfl, rfl, rfl, fun _ => rfl⟩ hb.sameArbiter

theorem Light.lifecycle {s t : State} (h : Light s t) : t.lifecycle = s.lifecycle := by
  cases h with
  | beside he => rw [he]
  | pg r level hb => rw [hb]; rfl
  | sides w u hb => rw [hb]

theorem Quiet.queueExact {s t : State} (h : Quiet s t) (hc : s.lifecycle = .committed) (hs : QueueExact s) : QueueExact t := by
  cases h with
  | light hl => exact hs.same hl.sameArbiter
  | table hu => exact nomatch hu.symm.trans hc
  | powerOn hb => exact (idle_powerOnReset s).queueExact.same hb.sameArbiter

/-! #### Events -/

theorem acts_supplyFound (st : SupplyState) (s : State) : Acts s (supplyFound st s) := by
  have h := acts_supplyChanged st s
  rw [supplyChanged_st] at h
  unfold supplyFound
  dsimp only
  split
  · exact h.trans (moves_drainRunning _ .collapse).acts
  · exact h

/-- What an event begins with is made of elementary changes. -/
theorem Onset.acts {s m : State} {reserve : Option Link} {lead log : List Announcement} (h : Onset s reserve lead m log) :
    Acts s m := by
  cases h with
  | claim reserve l r v hv hd => exact (Act.claim s l r v hv hd).one
  | without l st =>
    have hsession : Acts s (s.modSession l fun x => x.tornDown st) := acts_of_sessions rfl
    have h := hsession.trans (acts_clearClaims _ l)
    rw [State.without_eq] at h
    exact h
  | on r hr =>
    exact (Act.on s r hr).one.trans (moves_examineTarget (r := r)
      (e := ⟨s.enterOn r, [.enteredOn r ((s.enterOn r).rail r).level]⟩) (s.state_enterOn r)).acts
  | expired r hr => exact (Act.finish s r hr).one
  | deferred r hs hf hd => exact (Move.drained s r hs hf hd).one.acts
  | cleared l r hl => exact (Act.clear s r hl).one
  | supply st _ _ _ => exact acts_supplyFound st s
  | warm v => exact (Act.restart s).one.trans (acts_restartSupply v s.restartRails)

/-- The blocks that no event writes. -/
theorem Onset.table {s m : State} {reserve : Option Link} {lead log : List Announcement} (h : Onset s reserve lead m log) :
    m.records = s.records ∧ m.part = s.part ∧ m.lifecycle = s.lifecycle := by
  have only {t : State} (ho : OnlyRails s t) : t.records = s.records ∧ t.part = s.part ∧ t.lifecycle = s.lifecycle :=
    ⟨ho.records, ho.part, ho.lifecycle⟩
  cases h with
  | claim reserve l r v _ _ => exact ⟨rfl, rfl, rfl⟩
  | without l st => exact ⟨rfl, rfl, rfl⟩
  | on r _ => exact only ((onlyRails_enterOn s r).trans (onlyRails_examineTarget r ⟨s.enterOn r, _⟩))
  | expired r _ => exact only (onlyRails_modRail ..)
  | deferred r _ _ _ => exact only (onlyRails_finishDrain s r)
  | cleared l r _ => exact only (onlyRails_moveRail ..)
  | supply st _ _ _ =>
    have h := onlyRails_supplyFound st s
    exact ⟨h.records, h.part, h.lifecycle⟩
  | warm v =>
    have h := restartSupply_rest v s.restartRails
    have ho := onlyRails_restartRails s
    generalize s.restartRails = b at h ho
    generalize restartSupply v b = a at h
    rw [h]
    exact ⟨ho.records, ho.part, ho.lifecycle⟩

theorem queueExact_conclude (reserve : Option Link) (lead : List Announcement) (before : State) {e : Event}
    (hs : QueueOrdered e.st) : QueueExact (conclude reserve lead before e) := by
  have h := queueExact_granted before hs
  rw [conclude_beside]
  generalize (e.granted before).st = w at h
  exact h.same ⟨rfl, rfl, rfl, rfl, fun _ => rfl⟩

theorem queueExact_railTurn (reserve : Option Link) (lead log : List Announcement) {m : State} (hs : QueueOrdered m) :
    QueueExact (railTurn reserve lead ⟨m, log⟩) :=
  queueExact_conclude reserve lead m ((moves_railEvent ⟨m, log⟩).keep (fun _ _ hm h => hm.ordered h) hs)

theorem queueExact_fail (r : Rail) (k : FaultKind) {s : State} (hs : QueueOrdered s) : QueueExact (fail r k s) := by
  have hentered : QueueOrdered (s.enterFault r k) :=
    hs.sublist (onlyRails_enterFault s r k).records (enterFault_sublist s r k)
  have hmoves : Moves (s.enterFault r k) (faultSettled r k s).st :=
    (moves_cascade k _ _ (faultEntered r k s)).trans (moves_faultSettled r k s)
  have hordered : QueueOrdered (faultSettled r k s).st := hmoves.keep (fun _ _ hm h => hm.ordered h) hentered
  rw [fail_eq]
  generalize faultSettled r k s = e at hordered
  exact queueExact_conclude none e.log e.st (e := { e with log := [] }) hordered

theorem queueExact_grantHead (r : Rail) (k : GrantKind) {s : State} (hs : QueueExact s) : QueueExact (grantHead r k s) := by
  unfold grantHead
  split
  · next q rest hq =>
    split
    · next h =>
      obtain ⟨hr, hk, hfits⟩ := h
      have hreq : s.reconcile.requestOf r = some (k, q.amount) := by
        rw [← hr, ← hk]
        exact s.mem_reconcile q (hq ▸ List.mem_cons_self)
      have hpop : Moves s { s.reconcile with budgetQueue := rest } :=
        (Move.reconcile s).one.trans (Move.pop s.reconcile q rest hq).one
      have hmoves := hpop.trans (moves_handGrant s (e := ⟨{ s.reconcile with budgetQueue := rest }, []⟩) hreq hfits)
      have hordered := hmoves.keep (fun _ _ hm h => hm.ordered h) hs.toQueueKept.ordered
      generalize handGrant s r k q.amount ⟨{ s.reconcile with budgetQueue := rest }, []⟩ = e at hordered
      exact queueExact_conclude none e.log e.st (e := { e with log := [] }) hordered
    · exact hs
  · exact hs

theorem Course.queueExact {s t : State} (h : Course s t) (hc : s.lifecycle = .committed) (hs : QueueExact s) :
    QueueExact t := by
  have ordered {a : State} (hl : Light s a) : QueueOrdered a := (hs.same hl.sameArbiter).toQueueKept.ordered
  cases h with
  | quiet hq => exact hq.queueExact hc hs
  | event a m reserve lead log hq ho hb =>
    refine QueueExact.same ?_ hb.sameArbiter
    refine queueExact_railTurn reserve lead log (ho.acts.ordered (fun _ => ordered hq) ?_)
    rw [ho.table.2.2, hq.lifecycle, hc]
  | fault a r k hq _ hb => exact (queueExact_fail r k (ordered hq)).same hb.sameArbiter

/-! #### The COMMIT that is accepted -/

/-- A request that is served answers what its handler answers, but for the lease and the response. -/
theorem serve_cases (s : State) (k : Kind) (l : Link) (f : Frame) (body : State → Answer) :
    Beside s (s.serve k l f body) ∨ ∃ a, Beside s a ∧ Beside (body a).st (s.serve k l f body) := by
  have hlease := beside_renewLease s l
  unfold State.serve
  split
  · split
    · exact .inl (beside_respond ..)
    · split
      · exact .inl (beside_respond ..)
      · dsimp only
        split
        · exact .inl (hlease.trans (beside_respond ..))
        · exact .inr ⟨s.renewLease l, hlease, beside_respond ..⟩
  · exact .inl (.refl s)

theorem commitAnswer_cases (v : Nat) (s : State) :
    (commitAnswer v s).st = s ∨ commitFault s = none ∧ (commitAnswer v s).st = commitTaken v s := by
  unfold commitAnswer
  split
  · exact .inl rfl
  · next h => exact .inr ⟨h, rfl⟩

/-- A command that commits the part is an accepted COMMIT. -/
theorem committed_of_exec {c : Instr} {s t : State} (h : exec c s = .next t) (hu : s.lifecycle = .uncommitted)
    (ht : t.lifecycle = .committed) : ∃ a v, Beside s a ∧ commitFault a = none ∧ Beside (commitTaken v a) t := by
  rcases (tableIsWrittenByWritesAlone c s t h).2.2 with hl | ⟨-, -, l, f, v, rfl⟩ | rfl
  · rw [hl, hu] at ht
    cases ht
  · have hsame {a : State} (ha : Beside s a) (hst : Beside a t) : False := by
      rw [ha.trans hst, hu] at ht
      cases ht
    have ht' : ({ s with sense := v } : State).serve .commit l f (commitAnswer v) = t := Host.Outcome.next.inj h
    rcases serve_cases { s with sense := v } .commit l f (commitAnswer v) with hb | ⟨a, ha, hb⟩
    · exact (hsame (beside_sense s v) (ht' ▸ hb)).elim
    · rw [ht'] at hb
      rcases commitAnswer_cases v a with he | ⟨hnone, he⟩
      · exact (hsame ((beside_sense s v).trans ha) (he ▸ hb)).elim
      · exact ⟨a, v, (beside_sense s v).trans ha, hnone, he ▸ hb⟩
  · cases Host.Outcome.next.inj h
    rw [powerOnReset_eq] at ht
    cases ht

/-- A rail asks for budget in WAITING and in ON alone. -/
theorem State.requestOf_of_not_waiting {s : State} {r : Rail} (hw : (s.rail r).state ≠ .waiting) (ho : (s.rail r).state ≠ .on) :
    s.requestOf r = none := by
  cases hreq : s.requestOf r with
  | none => rfl
  | some a =>
    obtain ⟨k, n⟩ := a
    cases k with
    | start => exact absurd (State.waiting_of_start hreq) hw
    | raise => exact absurd (State.on_of_raise hreq) ho

theorem QueueExact.of_off {s : State} (hq : s.budgetQueue = []) (hoff : ∀ r, (s.rail r).state = .off) : QueueExact s where
  entry q h := by
    rw [hq] at h
    cases h
  once := by
    rw [hq]
    exact List.nodup_nil
  every r h := absurd (State.requestOf_of_not_waiting (by rw [hoff]; nofun) (by rw [hoff]; nofun)) h
  order := by
    rw [hq]
    exact List.Pairwise.nil
  head q h := by
    rw [hq] at h
    cases h

theorem State.rail_committedAt (s : State) (v : Nat) (r : Rail) : (s.committedAt v).rail r = s.committedRail v r :=
  Vector.getElem_ofFn _

theorem queueExact_committedAt (s : State) (v : Nat) : QueueExact (s.committedAt v) :=
  .of_off rfl fun r => by
    rw [State.rail_committedAt]
    rfl

/-- Settles O12: the grant rule runs after every event of a committed part until the head does not fit. -/
theorem stepsKeepQueueExact : Obligations.StepsKeepQueueExact := by
  intro s t hs hidle h
  have hidle' := hidle.step h
  refine ⟨?_, hidle'⟩
  rcases step_cases h with rfl | ⟨c, rest, -, hexec⟩
  · exact hs
  · have hs' : QueueExact { s with pending := rest } := hs.same ⟨rfl, rfl, rfl, rfl, fun _ => rfl⟩
    cases hlife : s.lifecycle with
    | committed =>
      rcases course_of_exec hexec with hcourse | ⟨-, rfl⟩ | ⟨r, k, rfl⟩
      · exact hcourse.queueExact hlife hs'
      · exact hs'.same (sameArbiter_tick _)
      · exact queueExact_grantHead r k hs'
    | uncommitted =>
      cases hlife' : t.lifecycle with
      | uncommitted => exact ((idleBeforeCommit_iff t).mp hidle' hlife').queueExact
      | committed =>
        obtain ⟨a, v, -, -, hb⟩ := committed_of_exec hexec hlife hlife'
        have hcommit := queueExact_committedAt a v
        have hrest := commitTaken_beside v a
        generalize commitTaken v a = b at hb hrest
        refine QueueExact.same ?_ hb.sameArbiter
        rw [hrest]
        exact hcommit.same ⟨rfl, rfl, rfl, rfl, fun _ => rfl⟩

end Sys2Proof.Machine
end

/-! ### The sessions after every command (R128, R136, R141, R149, R161) -/

section
namespace Sys2Proof.Machine

/-! #### One session -/

theorem Session.recordsWritten_resolved (x : Session) (r : Rail) (code : EventCode) (level : Nat) (d : Detail)
    (now : BitVec 16) : RecordsWritten x (x.resolved r code level d now) := by
  unfold RecordsWritten Session.resolved
  split <;> rfl

theorem Session.recordsWritten_offered (x : Session) (n : Nat) (e : EventRecord) : RecordsWritten x (x.offered n e) := by
  unfold RecordsWritten Session.offered
  split <;> rfl

/-- The records of an ATTACHED session rewritten within its room. -/
theorem SessionShape.written {x y : Session} (hs : SessionShape x) (hatt : x.state = .attached) (hw : RecordsWritten x y)
    (hroom : y.roomUsed ≤ 24) (hlost : y.lost ≤ 255) (halert : y.alertn = .low ↔ y.queue ≠ []) : SessionShape y where
  room := hroom
  lost := hlost
  alert := halert
  detached h := absurd (by rw [hw]; exact hatt) h
  attached _ := by
    have h := hs.attached hatt
    rw [hw]
    exact h

/-- Of an ATTACHED session, the shape with `n` slots more in reserve. -/
structure RoomFor (n : Nat) (x : Session) : Prop where
  shape : SessionShape x
  attached : x.state = .attached
  free : x.roomUsed + n ≤ 24

theorem RoomFor.resolved {n : Nat} {x : Session} (hs : RoomFor n x) (r : Rail) (code : EventCode) (level : Nat) (d : Detail)
    (now : BitVec 16) : RoomFor n (x.resolved r code level d now) := by
  obtain ⟨hshape, hatt, hfree⟩ := hs
  have hw := x.recordsWritten_resolved r code level d now
  have hroom := x.roomUsed_resolved r code level d now
  refine ⟨hshape.written hatt hw (by omega) ?_ ?_, by rw [hw]; exact hatt, by omega⟩
  · unfold Session.resolved
    split
    · exact hshape.lost
    · exact hshape.lost
  · unfold Session.resolved
    split
    · exact ⟨fun _ => List.append_ne_nil_of_right_ne_nil _ (List.cons_ne_nil _ _), fun _ => rfl⟩
    · exact hshape.alert

theorem RoomFor.offered {n : Nat} {x : Session} (hs : RoomFor n x) (e : EventRecord) : RoomFor n (x.offered n e) := by
  obtain ⟨hshape, hatt, hfree⟩ := hs
  have hw := x.recordsWritten_offered n e
  have hroom := x.roomUsed_offered n e
  have hfree' : (x.offered n e).roomUsed + n ≤ 24 := by
    rw [hroom]
    split <;> omega
  refine ⟨hshape.written hatt hw (by omega) ?_ ?_, by rw [hw]; exact hatt, hfree'⟩
  · unfold Session.offered
    split
    · exact hshape.lost
    · exact Nat.min_le_right _ _
  · unfold Session.offered
    split
    · exact ⟨fun _ => List.append_ne_nil_of_right_ne_nil _ (List.cons_ne_nil _ _), fun _ => rfl⟩
    · exact hshape.alert

theorem RoomFor.takes {s : State} {reserve : Option Link} {l : Link} {x : Session}
    (hs : RoomFor (reservedFor reserve l) x) (a : Announcement) :
    RoomFor (reservedFor reserve l) (Session.takes s reserve l x a) := by
  have hsettled : RoomFor (reservedFor reserve l) (x.settledBy s a) := by
    unfold Session.settledBy
    split
    · exact hs.resolved ..
    · exact hs
  unfold Session.takes
  rw [if_pos hs.attached]
  split
  · exact hsettled.offered _
  · exact hsettled

theorem RoomFor.foldl_takes {s : State} {reserve : Option Link} {l : Link} (log : List Announcement) {x : Session}
    (hs : RoomFor (reservedFor reserve l) x) : RoomFor (reservedFor reserve l) (log.foldl (Session.takes s reserve l) x) := by
  induction log generalizing x with
  | nil => exact hs
  | cons a log ih => exact ih (hs.takes a)

/-- An ATTACHED session has the room that its shape gives. -/
theorem SessionShape.roomFor {x : Session} (hs : SessionShape x) (hatt : x.state = .attached) : RoomFor 0 x :=
  ⟨hs, hatt, hs.room⟩

theorem Session.foldl_takes_of_unattached (s : State) (reserve : Option Link) (l : Link) (log : List Announcement) {x : Session}
    (h : x.state ≠ .attached) : log.foldl (Session.takes s reserve l) x = x := by
  induction log with
  | nil => rfl
  | cons a log ih => rw [List.foldl_cons, Session.takes_of_unattached s reserve l h, ih]

/-! #### Every session -/

theorem SessionsSound.same {s t : State} (hs : SessionsSound s) (hsessions : ∀ l, t.session l = s.session l)
    (hclaims : ∀ l r, t.claim l r = s.claim l r) : SessionsSound t := fun l => by
  rw [hsessions]
  exact ⟨(hs l).1, fun h r => (hclaims l r).trans ((hs l).2 h r)⟩

theorem SessionsSound.modSession {s : State} (hs : SessionsSound s) (l : Link) (f : Session → Session)
    (hshape : SessionShape (f (s.session l)))
    (hclaims : (f (s.session l)).state ≠ .attached → (s.session l).state ≠ .attached) : SessionsSound (s.modSession l f) := by
  intro m
  rw [State.session_modSession]
  split
  · next h =>
    subst h
    exact ⟨hshape, fun h => (hs m).2 (hclaims h)⟩
  · exact hs m

/-- The room that a reserved slot asks for. -/
def ReserveFits (reserve : Option Link) (s : State) : Prop := ∀ l, reserve = some l → RoomFor 1 (s.session l)

theorem reserveFits_none (s : State) : ReserveFits none s := nofun

theorem SessionsSound.roomFor {s : State} (hs : SessionsSound s) {reserve : Option Link} (hr : ReserveFits reserve s) {l : Link}
    (hatt : (s.session l).state = .attached) : RoomFor (reservedFor reserve l) (s.session l) := by
  unfold reservedFor
  split
  · next h => exact hr l h
  · exact (hs l).1.roomFor hatt

/-- What the announcements of an event make of the sessions. -/
theorem SessionsSound.heard {s t w : State} (hs : SessionsSound s) {reserve : Option Link} (hr : ReserveFits reserve s)
    {log : List Announcement} (hsessions : ∀ l, t.session l = log.foldl (Session.takes w reserve l) (s.session l))
    (hclaims : ∀ l r, t.claim l r = s.claim l r) : SessionsSound t ∧ ReserveFits reserve t := by
  refine ⟨fun l => ?_, fun l hl => ?_⟩
  · rw [hsessions]
    by_cases hatt : (s.session l).state = .attached
    · have hroom := (hs.roomFor hr hatt).foldl_takes (s := w) log
      exact ⟨hroom.shape, fun h => absurd hroom.attached h⟩
    · rw [Session.foldl_takes_of_unattached w reserve l log hatt]
      exact ⟨(hs l).1, fun h r => (hclaims l r).trans ((hs l).2 h r)⟩
  · have hroom := (hs.roomFor hr (hr l hl).attached).foldl_takes (s := w) log
    unfold reservedFor at hroom
    rw [if_pos hl] at hroom
    rwa [hsessions]

theorem RailsReact.claim {s t : State} (h : RailsReact s t) (l : Link) (r : Rail) : t.claim l r = s.claim l r :=
  State.claim_of_claims_eq (h r).claims l

theorem sound_conclude {e : Event} (reserve : Option Link) (lead : List Announcement) (before : State)
    (hs : SessionsSound e.st) (hr : ReserveFits reserve e.st) :
    SessionsSound (conclude reserve lead before e) ∧ ReserveFits reserve (conclude reserve lead before e) :=
  hs.heard hr (session_conclude reserve lead before e) fun l r => by
    rw [claim_conclude]
    exact (railsReact_granted before e).claim l r

theorem sound_railTurn {e : Event} (reserve : Option Link) (lead : List Announcement) (hs : SessionsSound e.st)
    (hr : ReserveFits reserve e.st) :
    SessionsSound (railTurn reserve lead e) ∧ ReserveFits reserve (railTurn reserve lead e) := by
  have ho := onlyRails_railEvent e
  have hr' := railsReact_railEvent e
  unfold railTurn
  generalize railEvent e = b at ho hr'
  have hsame (l : Link) : b.st.session l = e.st.session l := by
    unfold State.session
    rw [ho.sessions]
  refine sound_conclude reserve lead e.st (hs.same hsame hr'.claim) fun l hl => ?_
  rw [hsame]
  exact hr l hl

theorem sound_railTurn_none {s : State} (lead log : List Announcement) (hs : SessionsSound s) :
    SessionsSound (railTurn none lead ⟨s, log⟩) :=
  (sound_railTurn (e := ⟨s, log⟩) none lead hs (reserveFits_none s)).1

/-- A change of the rails that leaves the claims, by an event or ahead of one. -/
theorem SessionsSound.railed {s t : State} (hs : SessionsSound s) (ho : OnlyRails s t) (hr : RailsReact s t) :
    SessionsSound t := hs.same ho.session hr.claim

theorem SessionsSound.modRail {s : State} (hs : SessionsSound s) (r : Rail) {f : RailRuntime → RailRuntime}
    (hf : (f (s.rail r)).claims = (s.rail r).claims) : SessionsSound (s.modRail r f) :=
  hs.same (fun _ => rfl) fun l q => State.claim_of_claims_eq (by
    rw [State.rail_modRail]
    split
    · next h => rw [h, hf]
    · rfl) l

theorem SessionsSound.setClaim {s : State} (hs : SessionsSound s) {l : Link} {r : Rail} {v : Nat}
    (h : (s.session l).state ≠ .attached → v = 0) : SessionsSound (s.setClaim l r v) := by
  intro m
  refine ⟨(hs m).1, fun hm q => ?_⟩
  rw [State.claim_setClaim]
  split
  · next heq =>
    rw [heq.1] at hm
    exact h hm
  · exact (hs m).2 hm q

theorem sound_rewriteClaim {s : State} {reserve : Option Link} {l : Link} (r : Rail) {v : Nat} (hs : SessionsSound s)
    (hr : ReserveFits reserve s) (h : (s.session l).state ≠ .attached → v = 0) :
    SessionsSound (rewriteClaim reserve l r v s) ∧ ReserveFits reserve (rewriteClaim reserve l r v s) :=
  sound_railTurn (e := ⟨s.setClaim l r v, []⟩) reserve [] (hs.setClaim h) hr

theorem sessionShape_tornDown (x : Session) {st : SessionState} (h : st ≠ .attached) : SessionShape (x.tornDown st) :=
  .of_empty h rfl rfl (fun _ => get_replicate ..) rfl rfl rfl

theorem sound_without {s : State} (l : Link) {st : SessionState} (hst : st ≠ .attached) (hs : SessionsSound s) :
    SessionsSound (s.without l st) := by
  intro m
  by_cases hm : m = l
  · subst hm
    rw [State.session_without]
    exact ⟨sessionShape_tornDown _ hst, fun _ => s.claim_without m st⟩
  · have hsession : (s.without l st).session m = s.session m := (get_set s.sessions l m _).trans (if_neg hm)
    have hclaim (r : Rail) : (s.without l st).claim m r = s.claim m r := by
      have hr : (s.without l st).rail r = { s.rail r with claims := (s.rail r).claims.set l.val 0 l.isLt } := get_map ..
      rw [State.claim, hr, get_set, if_neg hm]
      rfl
    rw [hsession]
    exact ⟨(hs m).1, fun h r => (hclaim r).trans ((hs m).2 h r)⟩

theorem sound_teardown {s : State} (l : Link) {st : SessionState} (hst : st ≠ .attached) (hs : SessionsSound s) :
    SessionsSound (teardown l st s) := by
  rw [teardown_eq]
  exact sound_railTurn_none [] [] (sound_without l hst hs)

theorem SameButHolds.claims {x y : RailRuntime} (h : SameButHolds x y) : y.claims = x.claims := by
  unfold SameButHolds at h
  rw [h]

theorem Becomes.claim {s t : State} {r : Rail} {y : RailRuntime} (h : Becomes s t r y) (hy : y.claims = (s.rail r).claims)
    (l : Link) (q : Rail) : t.claim l q = s.claim l q := by
  refine State.claim_of_claims_eq ?_ l
  by_cases hq : q = r
  · subst hq
    exact h.self.claims.trans hy
  · exact (h.other hq).claims

/-- An entry into FAULT, and a grant, write of the sessions their records alone. -/
theorem sound_fail {s : State} (r : Rail) (k : FaultKind) (hs : SessionsSound s) : SessionsSound (fail r k s) := by
  have hclaims (l : Link) (q : Rail) : (fail r k s).claim l q = s.claim l q := by
    rw [(follows_fail_enterFault r k s).claim]
    exact (becomes_enterFault s r k).claim rfl l q
  exact (hs.heard (reserveFits_none s) (session_fail_told r k s) hclaims).1

theorem sound_grantHead {s : State} (r : Rail) (k : GrantKind) (hs : SessionsSound s) : SessionsSound (grantHead r k s) := by
  have hclaims := (follows_grantHead r k s).claim
  revert hclaims
  unfold grantHead
  split
  · next q rest hq =>
    split
    · have hpop : OnlyRails s { s.reconcile with budgetQueue := rest } := rfl
      have ho := hpop.trans (onlyRails_handGrant s r k q.amount ⟨{ s.reconcile with budgetQueue := rest }, []⟩)
      unfold concludeGroup
      generalize handGrant s r k q.amount ⟨{ s.reconcile with budgetQueue := rest }, []⟩ = e at ho
      intro hclaims
      have hsessions := session_conclude none e.log e.st { e with log := [] }
      exact (hs.heard (reserveFits_none s) (fun l => (hsessions l).trans (by rw [ho.session l])) hclaims).1
    · exact fun _ => hs
  · exact fun _ => hs

/-! #### Requests -/

theorem sessionShape_leaseRestarted {x : Session} (hs : SessionShape x) (hatt : x.state = .attached) :
    SessionShape { x with leaseTimer := .running (x.leaseLength.toNat * Config.leaseUnit) } where
  room := hs.room
  lost := hs.lost
  alert := hs.alert
  detached h := absurd hatt h
  attached _ := ⟨_, rfl, Nat.le_refl _⟩

theorem sound_renewLease {s : State} (l : Link) (hs : SessionsSound s) : SessionsSound (s.renewLease l) := by
  unfold State.renewLease
  split
  · next h => exact hs.modSession l _ (sessionShape_leaseRestarted (hs l).1 h) id
  · exact hs

theorem state_renewLease (s : State) (l : Link) : ((s.renewLease l).session l).state = (s.session l).state := by
  unfold State.renewLease
  split
  · rw [State.session_modSession, if_pos rfl]
  · rfl

theorem sound_respond {s : State} (l : Link) (tag : Byte) (st : Status) (data : List Byte) (hs : SessionsSound s) :
    SessionsSound (s.respond l tag st data) := hs.same (fun _ => rfl) fun _ _ => rfl

theorem attached_of_sessionRefusal {k : Kind} {x : SessionState} (h : sessionRefusal k x = none) (ha : k ≠ .attach)
    (hd : k ≠ .detach) : x = .attached := by
  unfold sessionRefusal at h
  cases x with
  | attached => rfl
  | detached => simp [ha] at h
  | expired => simp [ha, hd] at h

theorem sound_serve {s : State} {k : Kind} {l : Link} {f : Frame} {body : State → Answer} (hs : SessionsSound s)
    (h : ∀ t : State, SessionsSound t → sessionRefusal k (t.session l).state = none → SessionsSound (body t).st) :
    SessionsSound (s.serve k l f body) := by
  have hlease := sound_renewLease l hs
  unfold State.serve
  split
  · split
    · exact sound_respond _ _ _ _ hs
    · split
      · exact sound_respond _ _ _ _ hs
      · next hnone =>
        dsimp only
        split
        · exact sound_respond _ _ _ _ hlease
        · exact sound_respond _ _ _ _ (h _ hlease (by rw [state_renewLease]; exact hnone))
  · exact hs

theorem sound_closeOutstanding {s : State} (l : Link) (r : Rail) (code : EventCode) {n : Nat} (hs : SessionsSound s)
    (hroom : RoomFor n (s.session l)) :
    SessionsSound (closeOutstanding l r code s) ∧ RoomFor n ((closeOutstanding l r code s).session l) := by
  have hrest := closeOutstanding_eq l r code s
  have hclosed (m : Link) := s.session_resolve l m r code (s.rail r).level .absent
  unfold closeOutstanding at hrest ⊢
  generalize s.resolve l r code (s.rail r).level .absent = t at hrest hclosed
  have hresolved := hroom.resolved r code (s.rail r).level .absent s.timestamp
  have hclaims (m : Link) (q : Rail) : t.claim m q = s.claim m q := by rw [hrest]; rfl
  refine ⟨fun m => ?_, ?_⟩
  · rw [hclosed]
    split
    · exact ⟨hresolved.shape, fun h => absurd hresolved.attached h⟩
    · exact ⟨(hs m).1, fun h q => (hclaims m q).trans ((hs m).2 h q)⟩
  · rw [hclosed, if_pos rfl]
    exact hresolved

/-- A completion set up in the slot reserved for it (R62, R145). -/
theorem sound_setUp {s : State} (l : Link) (r : Rail) (o : Outstanding) (outcome : Option (EventCode × Nat × Detail))
    (hs : SessionsSound s) (hroom : RoomFor 1 (s.session l)) (hfree : (s.session l).table.get r = none) :
    SessionsSound (setUp l r o outcome s) := by
  obtain ⟨hshape, hatt, hfit⟩ := hroom
  have hset : SessionShape { s.session l with table := (s.session l).table.set r.val (some o) r.isLt } := by
    refine hshape.written hatt rfl ?_ hshape.lost hshape.alert
    have hcount := Session.outstandingCount_set o hfree
    unfold Session.roomUsed at hfit ⊢
    rw [hcount]
    omega
  have hstored : SessionsSound (s.setOutstanding l r (some o)) :=
    hs.modSession l _ hset fun h => absurd hatt h
  have hsession : (s.setOutstanding l r (some o)).session l =
      { s.session l with table := (s.session l).table.set r.val (some o) r.isLt } :=
    (State.session_modSession ..).trans (if_pos rfl)
  have hroom : RoomFor 0 ((s.setOutstanding l r (some o)).session l) := by
    rw [hsession]
    exact hset.roomFor hatt
  unfold setUp
  split
  · next code level d =>
    have hresolve := (s.setOutstanding l r (some o)).session_resolve l
    have hclaims := (follows_resolve (s.setOutstanding l r (some o)) l r code level d).claim
    generalize s.setOutstanding l r (some o) = t at hstored hroom hresolve hclaims
    intro m
    rw [hresolve]
    split
    · next hm =>
      have hdone := hroom.resolved r code level d t.timestamp
      exact ⟨hdone.shape, fun h => absurd hdone.attached h⟩
    · exact ⟨(hstored m).1, fun h q => (hclaims m q).trans ((hstored m).2 h q)⟩
  · exact hstored

/-- A request that closes the session's completion on a rail, writes its claim, and sets up a completion with one slot held
in reserve. -/
theorem sound_served {s : State} (l : Link) (r : Rail) (v : Nat) (o : Outstanding)
    (outcome : Option (EventCode × Nat × Detail)) (hs : SessionsSound s) (hatt : (s.session l).state = .attached)
    (hroom : (s.session l).roomUsed < 24) {c w : State} (hc : c = closeOutstanding l r .superseded s)
    (hw : w = rewriteClaim (some l) l r v c) : SessionsSound (setUp l r o outcome w) := by
  obtain ⟨hclosed, hfree⟩ := sound_closeOutstanding l r .superseded hs (n := 1) ⟨(hs l).1, hatt, hroom⟩
  have hnone := outstanding_closeOutstanding l r .superseded s r
  rw [if_pos rfl] at hnone
  rw [← hc] at hclosed hfree hnone
  have hreserve : ReserveFits (some l) c := fun m hm => by
    cases hm
    exact hfree
  obtain ⟨hsound, hfits⟩ := sound_rewriteClaim r (v := v) hclosed hreserve fun h => absurd hfree.attached h
  have htable : (w.session l).table.get r = none := by
    rw [hw]
    unfold rewriteClaim railTurn
    rw [session_conclude]
    have hsame := (onlyRails_railEvent ⟨c.setClaim l r v, []⟩).session l
    rw [hsame]
    exact Session.foldl_takes_table_none _ _ _ _ hnone
  rw [← hw] at hsound hfits
  exact sound_setUp l r o _ hsound (hfits l rfl) htable

theorem sound_claimTaken {s : State} {l : Link} (r : Rail) (v : Nat) (tag : Byte) (hs : SessionsSound s)
    (hatt : (s.session l).state = .attached) (hroom : (s.session l).roomUsed < 24) : SessionsSound (claimTaken l r v tag s) := by
  unfold claimTaken
  dsimp only
  exact sound_served l r v _ _ hs hatt hroom rfl rfl

theorem sound_releaseWaiting {s : State} {l : Link} (r : Rail) (tag : Byte) (hs : SessionsSound s)
    (hatt : (s.session l).state = .attached) (hroom : (s.session l).roomUsed < 24) : SessionsSound (releaseWaiting l r tag s) := by
  unfold releaseWaiting
  dsimp only
  exact sound_served l r 0 _ _ hs hatt hroom rfl rfl

theorem sound_claimAnswer {s : State} {l : Link} (f : Frame) (hs : SessionsSound s) (hatt : (s.session l).state = .attached) :
    SessionsSound (claimAnswer l f s).st := by
  unfold claimAnswer
  split
  · exact hs
  · next r _ =>
    dsimp only
    split
    · exact hs
    · split
      · exact hs
      · next hroom =>
        dsimp only
        exact sound_claimTaken r _ f.tag hs hatt (Nat.lt_of_not_le hroom)

theorem sound_releaseAnswer {s : State} {l : Link} (f : Frame) (hs : SessionsSound s) (hatt : (s.session l).state = .attached) :
    SessionsSound (releaseAnswer l f s).st := by
  unfold releaseAnswer
  split
  · exact hs
  · next r _ =>
    split
    · dsimp only
      unfold releaseNow
      dsimp only
      split
      · have hclosed := (sound_closeOutstanding l r .cancelled hs ((hs l).1.roomFor hatt)).1
        exact (sound_rewriteClaim r hclosed (reserveFits_none _) fun _ => rfl).1
      · exact (sound_rewriteClaim r hs (reserveFits_none _) fun _ => rfl).1
    · split
      · split
        · exact hs
        · next hroom =>
          dsimp only
          exact sound_releaseWaiting r f.tag hs hatt (Nat.lt_of_not_le hroom)
      · exact hs

theorem sound_clearFaultAnswer {s : State} (l : Link) (f : Frame) (hs : SessionsSound s) :
    SessionsSound (clearFaultAnswer l f s).st := by
  unfold clearFaultAnswer
  split
  · exact hs
  · next r _ =>
    dsimp only
    split
    · exact hs
    · split
      · exact hs
      · split
        · exact hs
        · dsimp only
          unfold clearFaultTaken
          dsimp only
          exact sound_railTurn_none [] _ (hs.same (onlyRails_moveRail ..).session ((becomes_moveRail s r _).claim rfl))

theorem sound_fetchAnswer {s : State} (l : Link) (hs : SessionsSound s) : SessionsSound (fetchAnswer l s).st := by
  have hshape := (hs l).1
  unfold fetchAnswer
  dsimp only
  split
  · next hq =>
    refine hs.modSession l _ ⟨hshape.room, Nat.zero_le _, hshape.alert, fun h => ?_, hshape.attached⟩ id
    obtain ⟨htimer, hmask, htable, hqueue, -⟩ := hshape.detached h
    exact ⟨htimer, hmask, htable, hqueue, rfl⟩
  · next e rest hq =>
    refine hs.modSession l _ ⟨?_, Nat.zero_le _, ?_, fun h => ?_, hshape.attached⟩ id
    · have hroom := hshape.room
      unfold Session.roomUsed at hroom ⊢
      rw [hq] at hroom
      exact Nat.le_trans (Nat.add_le_add_right (Nat.le_succ _) _) hroom
    · have halert : (s.session l).alertn = .low := hshape.alert.mpr (by rw [hq]; exact List.cons_ne_nil _ _)
      cases rest with
      | nil => exact ⟨nofun, fun h => absurd rfl h⟩
      | cons a rest => exact ⟨fun _ => List.cons_ne_nil _ _, fun _ => halert⟩
    · have hqueue := (hshape.detached h).2.2.2.1
      rw [hq] at hqueue
      cases hqueue

theorem sound_attachAnswer {s : State} {l : Link} (f : Frame) (hs : SessionsSound s) :
    SessionsSound (attachAnswer l f s).st := by
  have hshape := (hs l).1
  unfold attachAnswer
  dsimp only
  split
  · exact hs
  · exact hs.modSession l _ ⟨hshape.room, hshape.lost, hshape.alert, fun h => absurd rfl h, fun _ => ⟨_, rfl, Nat.le_refl _⟩⟩
      fun h => absurd rfl h

theorem sound_detachAnswer {s : State} (l : Link) (hs : SessionsSound s) : SessionsSound (detachAnswer l s).st := by
  have hshape := (hs l).1
  unfold detachAnswer
  split
  · dsimp only
    exact sound_teardown l nofun hs
  · next h =>
    exact hs.modSession l _ ⟨hshape.room, hshape.lost, hshape.alert, fun _ => hshape.detached h, nofun⟩ fun _ => h

/-! #### The other commands -/

theorem sound_changeSupply {s : State} (st : SupplyState) (hs : SessionsSound s) : SessionsSound (changeSupply st s) := by
  have hfound : SessionsSound (supplyFound st s) :=
    hs.same (onlyRails_supplyFound st s).session fun l r =>
      ((railsReact_supplyFound st s).claim l r).trans (State.claim_of_claims_eq (by rw [State.rail_supplied]) l)
  rw [changeSupply_eq_railTurn]
  exact sound_railTurn_none _ [] hfound

/-- A change that leaves the sessions and the rails' claims. -/
theorem SessionsSound.beside {s t : State} (hs : SessionsSound s) (hsessions : t.sessions = s.sessions)
    (hrails : t.rails = s.rails) : SessionsSound t :=
  hs.same (fun _ => by rw [State.session, hsessions]; rfl) fun l r =>
    State.claim_of_claims_eq (by rw [State.rail, hrails]; rfl) l

theorem sound_reachOn {s : State} {r : Rail} (hr : (s.rail r).state.free) (hs : SessionsSound s) :
    SessionsSound (reachOn r s) := by
  have hclaims := (follows_reachOn (s := s) hr).claim
  have ho := (onlyRails_enterOn s r).trans
    ((onlyRails_examineTarget r ⟨s.enterOn r, [.enteredOn r ((s.enterOn r).rail r).level]⟩).trans (onlyRails_railEvent _))
  revert hclaims
  unfold reachOn railTurn
  dsimp only
  generalize examineTarget r ⟨s.enterOn r, [.enteredOn r ((s.enterOn r).rail r).level]⟩ = e at ho
  intro hclaims
  have hsessions := session_conclude none [] e.st (railEvent e)
  exact (hs.heard (reserveFits_none s) (fun l => (hsessions l).trans (by rw [ho.session l])) hclaims).1

theorem sound_pgChange {s : State} (r : Rail) (level : Line) (hs : SessionsSound s) : SessionsSound (pgChange r level s) := by
  have hpg : SessionsSound (s.modRail r fun x => { x with pg := level }) := hs.modRail r rfl
  have hstate : ((s.modRail r fun x => { x with pg := level }).rail r).state = (s.rail r).state := by simp
  unfold pgChange
  split
  · exact hs
  · dsimp only
    generalize (s.modRail r fun x => { x with pg := level }) = a at hpg hstate
    split
    · split
      · next hs _ => exact sound_reachOn (RailState.free_of_running (by rw [hstate, hs]; rfl)) hpg
      · exact sound_fail r .pgLost hpg
      · exact hpg
    · exact hpg

theorem sound_rampExpiry {s : State} (r : Rail) (hs : SessionsSound s) : SessionsSound (rampExpiry r s) := by
  unfold rampExpiry
  split
  · next h =>
    split
    · exact sound_fail r .rampTimeout hs
    · exact sound_reachOn (RailState.free_of_running (by rw [h.1]; rfl)) hs
  · exact hs

theorem sound_slewExpiry {s : State} (r : Rail) (hs : SessionsSound s) : SessionsSound (slewExpiry r s) := by
  unfold slewExpiry
  split
  · next h =>
    split
    · exact sound_fail r .slewFail hs
    · exact sound_reachOn (RailState.free_of_running (by rw [h.1]; rfl)) hs
  · exact hs

theorem sound_drainExpiry {s : State} (r : Rail) (hs : SessionsSound s) : SessionsSound (drainExpiry r s) := by
  unfold drainExpiry
  split
  · split
    · exact sound_fail r .drainStuck hs
    · exact sound_railTurn_none [] [] (hs.modRail r rfl)
  · exact hs

theorem sound_deferredOffTaken {s : State} (r : Rail) (hs : SessionsSound s) : SessionsSound (deferredOffTaken r s) := by
  unfold deferredOffTaken
  dsimp only
  split
  · next h => exact sound_railTurn_none [] _ (hs.railed (onlyRails_finishDrain s r) (railsReact_finishDrain h.1 h.2.1))
  · exact hs

theorem sound_fallBelowWarn {s : State} (hs : SessionsSound s) : SessionsSound (fallBelowWarn s) := by
  have hcross : SessionsSound { s with supply := { s.supply with warnOut := .below } } := hs.beside rfl rfl
  unfold fallBelowWarn
  split
  · dsimp only
    split
    · exact sound_changeSupply _ hcross
    · exact sound_changeSupply _ hcross
    · exact hcross
    · exact hcross
  · exact hs

theorem sound_fallBelowCrit {s : State} (hs : SessionsSound s) : SessionsSound (fallBelowCrit s) := by
  have hcross : SessionsSound { s with supply := { s.supply with critOut := .below } } := hs.beside rfl rfl
  unfold fallBelowCrit
  split
  · dsimp only
    split
    · exact sound_changeSupply _ hcross
    · exact sound_changeSupply _ hcross
    · exact sound_changeSupply _ hcross
    · exact hcross
  · exact hs

theorem sound_riseAboveCritBand {s : State} (hs : SessionsSound s) : SessionsSound (riseAboveCritBand s) := by
  have hcross : SessionsSound { s with supply := { s.supply with critOut := .above } } := hs.beside rfl rfl
  unfold riseAboveCritBand
  split
  · dsimp only
    split
    · exact sound_changeSupply _ hcross
    · exact hcross
    · exact hcross
    · exact hcross
  · exact hs

theorem sound_riseAboveWarnBand {s : State} (hs : SessionsSound s) : SessionsSound (riseAboveWarnBand s) := by
  have hcross : SessionsSound { s with supply := { s.supply with warnOut := .above } } := hs.beside rfl rfl
  unfold riseAboveWarnBand
  split
  · dsimp only
    split
    · exact sound_changeSupply _ hcross
    · exact sound_changeSupply _ hcross
    · exact hcross
    · exact hcross
  · exact hs

theorem sound_linkReset {s : State} (l : Link) (hs : SessionsSound s) : SessionsSound (linkReset l s) := by
  unfold linkReset
  split
  · exact hs
  · exact sound_teardown l nofun (hs.beside rfl rfl)

theorem session_foldl_tornDown (ls : List Link) (s : State) (m : Link) :
    (ls.foldl (fun t l =>
      (t.modSession l fun x => x.tornDown .detached).modLink l fun x => { x with receiver := x.receiver.atWarmReset }) s).session
        m = if m ∈ ls then (s.session m).tornDown .detached else s.session m := by
  induction ls generalizing s with
  | nil => rfl
  | cons l ls ih =>
    have hfirst : ((s.modSession l fun x => x.tornDown .detached).modLink l fun x =>
        { x with receiver := x.receiver.atWarmReset }).session m = if m = l then (s.session l).tornDown .detached else s.session m :=
      s.session_modSession l m fun x => x.tornDown .detached
    rw [List.foldl_cons, ih, hfirst]
    by_cases hm : m = l
    · subst hm
      rw [if_pos rfl, if_pos List.mem_cons_self]
      split <;> rfl
    · rw [if_neg hm]
      simp only [List.mem_cons, hm, false_or]

theorem session_forgetMasters (s : State) (l : Link) : s.forgetMasters.session l = (s.session l).tornDown .detached := by
  unfold State.forgetMasters
  rw [session_foldl_tornDown, if_pos (mem_allLinks l)]
  rfl

theorem claim_restartRails (s : State) (l : Link) (r : Rail) : s.restartRails.claim l r = 0 := by
  have h := (rail_restartRails s r).claims
  have hcleared : ((s.rail r).restarted r (s.record r)).claims = .replicate 4 0 := by
    unfold RailRuntime.restarted RailRuntime.restartedIfIdle RailRuntime.drainedIfRunning
    split <;> split <;> rfl
  rw [State.claim, h, hcleared]
  exact get_replicate ..

theorem sound_warmReset {s : State} (v : Nat) (hs : SessionsSound s) : SessionsSound (warmReset v s) := by
  unfold warmReset
  split
  · exact hs.beside rfl rfl
  · have hsessions := session_forgetMasters s
    generalize s.forgetMasters = a at hsessions
    have hkept := (onlyRails_restartRails a).session
    have hclaims := claim_restartRails a
    generalize a.restartRails = b at hkept hclaims
    have hsupply := rail_restartSupply v b
    have hrest := restartSupply_rest v b
    generalize restartSupply v b = c at hsupply hrest
    have hc (l : Link) : c.session l = (s.session l).tornDown .detached := by
      rw [← hsessions, ← hkept, hrest]
      rfl
    refine sound_railTurn_none [] [] fun l => ?_
    rw [hc]
    exact ⟨sessionShape_tornDown _ nofun, fun _ r => (State.claim_of_claims_eq (by rw [hsupply]) l).trans (hclaims l r)⟩

theorem sound_powerOnReset (s : State) : SessionsSound (powerOnReset s) :=
  (powerOnReset_eq s) ▸ sessionsSound_reset.beside rfl rfl

theorem Timer.tick_le {ms n : Nat} (h : ms ≤ n) : ∃ m, (Timer.running ms).tick = .running m ∧ m ≤ n :=
  ⟨ms - 1, rfl, by omega⟩

theorem SessionShape.ticked {x : Session} (hs : SessionShape x) : SessionShape { x with leaseTimer := x.leaseTimer.tick } where
  room := hs.room
  lost := hs.lost
  alert := hs.alert
  detached h := by
    obtain ⟨htimer, hrest⟩ := hs.detached h
    exact ⟨by rw [htimer]; rfl, hrest⟩
  attached h := by
    obtain ⟨ms, htimer, hms⟩ := hs.attached h
    rw [htimer]
    exact Timer.tick_le hms

theorem sound_tick {s : State} (hs : SessionsSound s) :
    SessionsSound { s.tickTimers with timestamp := s.timestamp + 1 } := by
  have hsession := s.session_tickTimers
  have hrail := s.rail_tickTimers
  generalize s.tickTimers = t at hsession hrail
  have hticked : SessionsSound t := fun l => by
    rw [hsession]
    exact ⟨(hs l).1.ticked, fun h r => (State.claim_of_claims_eq (by rw [hrail]) l).trans ((hs l).2 h r)⟩
  exact hticked.beside rfl rfl

theorem sound_commitAnswer {s : State} (v : Nat) (hs : SessionsSound s) : SessionsSound (commitAnswer v s).st := by
  rcases commitAnswer_cases v s with he | ⟨-, he⟩
  · rw [he]
    exact hs
  · rw [he, commitTaken_deliver]
    have hclaim (l : Link) (r : Rail) : (s.committedAt v).claim l r = 0 := by
      rw [State.claim, State.rail_committedAt]
      exact get_replicate ..
    have hs' : SessionsSound (s.committedAt v) := fun l => ⟨(hs l).1, fun _ r => hclaim l r⟩
    exact (hs'.heard (reserveFits_none _) (session_deliver _ none (s.commitLog v)) fun l r => by
      rw [(heard_deliver ..).rest]
      rfl).1

theorem sound_writeRailAnswer {s : State} (f : Frame) (hs : SessionsSound s) : SessionsSound (writeRailAnswer f s).st := by
  unfold writeRailAnswer
  split
  · split
    · exact hs.beside rfl rfl
    · exact hs
  · exact hs

theorem sound_readRailAnswer {s : State} (f : Frame) (hs : SessionsSound s) : SessionsSound (readRailAnswer f s).st := by
  unfold readRailAnswer
  split <;> exact hs

theorem sound_queryRailAnswer {s : State} (l : Link) (f : Frame) (hs : SessionsSound s) :
    SessionsSound (queryRailAnswer l f s).st := by
  unfold queryRailAnswer
  split <;> exact hs

theorem sound_linkResetRelease {s : State} (l : Link) (hs : SessionsSound s) : SessionsSound (linkResetRelease l s) := by
  unfold linkResetRelease
  split
  · exact hs
  · exact hs.beside rfl rfl

theorem sound_csnFall {s : State} (l : Link) (hs : SessionsSound s) : SessionsSound (csnFall l s) := by
  unfold csnFall
  split
  · exact hs
  · exact hs.beside rfl rfl

theorem sound_csnRise {s : State} (l : Link) (hs : SessionsSound s) : SessionsSound (csnRise l s) := by
  unfold csnRise
  split
  · exact hs
  · exact hs.beside rfl rfl

theorem sound_responseEnd {s : State} (l : Link) (hs : SessionsSound s) : SessionsSound (responseEnd l s) := by
  unfold responseEnd
  split
  · exact hs.beside rfl rfl
  · exact hs

theorem exec_sound {s : State} (c : Instr) (hs : SessionsSound s) : ∃ t, exec c s = .next t ∧ SessionsSound t := by
  have hsense (v : Nat) : SessionsSound { s with sense := v } := hs.beside rfl rfl
  cases c with
  | attach l f => exact ⟨_, rfl, sound_serve hs fun t ht _ => sound_attachAnswer f ht⟩
  | detach l f => exact ⟨_, rfl, sound_serve hs fun t ht _ => sound_detachAnswer l ht⟩
  | renew l f => exact ⟨_, rfl, sound_serve hs fun t ht _ => ht⟩
  | claim l f =>
    exact ⟨_, rfl, sound_serve hs fun t ht h => sound_claimAnswer f ht (attached_of_sessionRefusal h nofun nofun)⟩
  | releaseWithoutWait l f =>
    exact ⟨_, rfl, sound_serve hs fun t ht h => sound_releaseAnswer f ht (attached_of_sessionRefusal h nofun nofun)⟩
  | releaseWithWait l f =>
    exact ⟨_, rfl, sound_serve hs fun t ht h => sound_releaseAnswer f ht (attached_of_sessionRefusal h nofun nofun)⟩
  | clearFault l f => exact ⟨_, rfl, sound_serve hs fun t ht _ => sound_clearFaultAnswer l f ht⟩
  | fetchEvent l f => exact ⟨_, rfl, sound_serve hs fun t ht _ => sound_fetchAnswer l ht⟩
  | queryRail l f => exact ⟨_, rfl, sound_serve hs fun t ht _ => sound_queryRailAnswer l f ht⟩
  | queryPart l f => exact ⟨_, rfl, sound_serve hs fun t ht _ => ht⟩
  | writeRail l f => exact ⟨_, rfl, sound_serve hs fun t ht _ => sound_writeRailAnswer f ht⟩
  | writePart l f => exact ⟨_, rfl, sound_serve hs fun t ht _ => ht.beside rfl rfl⟩
  | readRail l f => exact ⟨_, rfl, sound_serve hs fun t ht _ => sound_readRailAnswer f ht⟩
  | readPart l f => exact ⟨_, rfl, sound_serve hs fun t ht _ => ht⟩
  | commit l f v => exact ⟨_, rfl, sound_serve (hsense v) fun t ht _ => sound_commitAnswer v ht⟩
  | frameDiscard l => exact ⟨_, rfl, sound_csnRise l hs⟩
  | pgChangeTaken r level => exact ⟨_, rfl, sound_pgChange r level hs⟩
  | rampTimeExpiry r => exact ⟨_, rfl, sound_rampExpiry r hs⟩
  | slewTimeExpiry r => exact ⟨_, rfl, sound_slewExpiry r hs⟩
  | drainTimeExpiry r => exact ⟨_, rfl, sound_drainExpiry r hs⟩
  | deferredOff r => exact ⟨_, rfl, sound_deferredOffTaken r hs⟩
  | startGrant r => exact ⟨_, rfl, sound_grantHead r .start hs⟩
  | raiseGrant r => exact ⟨_, rfl, sound_grantHead r .raise hs⟩
  | holdoffExpiry =>
    refine ⟨_, rfl, ?_⟩
    unfold holdoffExpiry
    split
    · exact sound_changeSupply _ hs
    · exact hs
  | leaseExpiry l =>
    refine ⟨_, rfl, ?_⟩
    split
    · exact sound_teardown l nofun hs
    · exact hs
  | fallBelowWarn v => exact ⟨_, rfl, sound_fallBelowWarn (hsense v)⟩
  | fallBelowCrit v => exact ⟨_, rfl, sound_fallBelowCrit (hsense v)⟩
  | riseAboveCritBand v => exact ⟨_, rfl, sound_riseAboveCritBand (hsense v)⟩
  | riseAboveWarnBand v => exact ⟨_, rfl, sound_riseAboveWarnBand (hsense v)⟩
  | linkReset l => exact ⟨_, rfl, sound_linkReset l hs⟩
  | linkResetRelease l => exact ⟨_, rfl, sound_linkResetRelease l hs⟩
  | warmReset v => exact ⟨_, rfl, sound_warmReset v hs⟩
  | warmResetRelease => exact ⟨_, rfl, hs.beside rfl rfl⟩
  | powerOnReset => exact ⟨_, rfl, sound_powerOnReset s⟩
  | timestampTick => exact ⟨_, rfl, sound_tick hs⟩
  | csnFall l => exact ⟨_, rfl, sound_csnFall l hs⟩
  | responseEnd l => exact ⟨_, rfl, sound_responseEnd l hs⟩
  | csnRise l => exact ⟨_, rfl, sound_csnRise l hs⟩

/-- Settles O10: the rules of one session's room, put together command by command. -/
theorem stepsKeepSessionsSound : Obligations.StepsKeepSessionsSound := by
  intro s t hs h
  rcases step_cases h with rfl | ⟨c, rest, -, hexec⟩
  · exact hs
  · obtain ⟨u, hu, hsound⟩ := exec_sound (s := { s with pending := rest }) c (hs.beside rfl rfl)
    cases hu.symm.trans hexec
    exact hsound

end Sys2Proof.Machine
end

/-! ### A rail that goes on ramping (R32) -/

section
namespace Sys2Proof.Machine

/-- A record whose ramp, if it had one, is over for the event. -/
def RailRuntime.RampOver (x : RailRuntime) : Prop := x.state = .on ∨ x.state = .slewing ∨ x.Frozen

/-- A ramp under way in `x` goes on in `y` with its level, budget and timer, or is over. -/
def RampKept (x y : RailRuntime) : Prop :=
  y.RampOver ∨ (y.state = .ramping ∧ y.level = x.level ∧ y.held = x.held ∧ y.timer = x.timer)

theorem RampKept.refl {x : RailRuntime} (h : x.state = .ramping) : RampKept x x := .inr ⟨h, rfl, rfl, rfl⟩

theorem RampKept.of_ramping {x y : RailRuntime} (h : RampKept x y) (hy : y.state = .ramping) :
    y.level = x.level ∧ y.held = x.held ∧ y.timer = x.timer := by
  rcases h with (h | h | h | ⟨h, -⟩) | ⟨-, hkept⟩
  · exact nomatch h.symm.trans hy
  · exact nomatch h.symm.trans hy
  · exact nomatch h.symm.trans hy
  · exact nomatch h.symm.trans hy
  · exact hkept

theorem OnlyAims.rampOver {x y : RailRuntime} (h : OnlyAims x y) (hx : x.RampOver) : y.RampOver := by
  unfold RailRuntime.RampOver RailRuntime.Frozen at *
  rw [h.state, h.drainFinished]
  exact hx

theorem OnlyAims.timer {x y : RailRuntime} (h : OnlyAims x y) : y.timer = x.timer := by rw [h]

theorem SameButHolds.state {x y : RailRuntime} (h : SameButHolds x y) : y.state = x.state := h.onlyAims.state

theorem frozen_of_toDraining {r : Rail} {rec : RailRecord} {c : DrainCause} {x y : RailRuntime}
    (h : SameButHolds (x.toDraining r rec c) y) : y.Frozen :=
  .inr ⟨h.state, h.onlyAims.drainFinished⟩

section
variable {r : Rail} {rec : RailRecord} {asks : Option (GrantKind × Nat)} {x y z : RailRuntime}

theorem RailStep.rampOver (h : RailStep r rec asks x y) (hx : x.RampOver) : y.RampOver := by
  rcases hx with hx | hx | hx
  · cases h with
    | aims h => exact h.rampOver (.inl hx)
    | wait hs => exact nomatch hs.symm.trans hx
    | unwait hs => exact nomatch hs.symm.trans hx
    | drain c _ hy => exact .inr (.inr (frozen_of_toDraining hy))
    | slewDown _ _ _ hy => exact .inr (.inl hy.state)
    | drained hs => exact nomatch hs.symm.trans hx
    | start n _ _ hs => exact nomatch hs.symm.trans hx
    | backfeed n _ _ _ hs => exact nomatch hs.symm.trans hx
    | raise n _ _ _ _ hy => exact .inr (.inl hy.state)
    | wholeFall level _ _ hy => exact .inr (.inr (frozen_of_toDraining hy))
  · cases h with
    | aims h => exact h.rampOver (.inr (.inl hx))
    | wait hs => exact nomatch hs.symm.trans hx
    | unwait hs => exact nomatch hs.symm.trans hx
    | drain c _ hy => exact .inr (.inr (frozen_of_toDraining hy))
    | slewDown hs => exact nomatch hs.symm.trans hx
    | drained hs => exact nomatch hs.symm.trans hx
    | start n _ _ hs => exact nomatch hs.symm.trans hx
    | backfeed n _ _ _ hs => exact nomatch hs.symm.trans hx
    | raise n _ _ hs => exact nomatch hs.symm.trans hx
    | wholeFall level _ _ hy => exact .inr (.inr (frozen_of_toDraining hy))
  · exact (h.of_frozen hx).rampOver (.inr (.inr hx))

/-- No move of an event changes a ramp but to end it. -/
theorem RailStep.rampKept (h : RailStep r rec asks x y) (hx : RampKept z x) : RampKept z y := by
  rcases hx with hx | ⟨hx, hlevel, hheld, htimer⟩
  · exact .inl (h.rampOver hx)
  · cases h with
    | aims h => exact .inr ⟨h.state.trans hx, h.level.trans hlevel, h.held.trans hheld, h.timer.trans htimer⟩
    | wait hs => exact nomatch hs.symm.trans hx
    | unwait hs => exact nomatch hs.symm.trans hx
    | drain c _ hy => exact .inl (.inr (.inr (frozen_of_toDraining hy)))
    | slewDown hs => exact nomatch hs.symm.trans hx
    | drained hs => exact nomatch hs.symm.trans hx
    | start n _ _ hs => exact nomatch hs.symm.trans hx
    | backfeed n _ _ _ hs => exact nomatch hs.symm.trans hx
    | raise n _ _ hs => exact nomatch hs.symm.trans hx
    | wholeFall level hs => exact nomatch hs.symm.trans hx

end

theorem Moves.rampKept {s t : State} (h : Moves s t) {z : RailRuntime} {r : Rail} (hs : RampKept z (s.rail r)) :
    RampKept z (t.rail r) :=
  h.keepRail (P := RampKept z) (fun _ _ _ hstep hx => hstep.rampKept hx) rfl hs

/-- A grant as a command of its own is made of moves. -/
theorem moves_grantHead (r : Rail) (k : GrantKind) (s : State) : ∃ u, Moves s u ∧ Beside u (grantHead r k s) := by
  unfold grantHead
  split
  · next q rest hq =>
    split
    · next h =>
      obtain ⟨hr, hk, hfits⟩ := h
      have hreq : s.reconcile.requestOf r = some (k, q.amount) := by
        rw [← hr, ← hk]
        exact s.mem_reconcile q (hq ▸ List.mem_cons_self)
      have hpop : Moves s { s.reconcile with budgetQueue := rest } :=
        (Move.reconcile s).one.trans (Move.pop s.reconcile q rest hq).one
      have hmoves := hpop.trans (moves_handGrant s (e := ⟨{ s.reconcile with budgetQueue := rest }, []⟩) hreq hfits)
      generalize handGrant s r k q.amount ⟨{ s.reconcile with budgetQueue := rest }, []⟩ = e at hmoves
      refine ⟨_, hmoves.trans (moves_granted e.st { e with log := [] }), ?_⟩
      unfold concludeGroup
      have h := conclude_beside none e.log e.st { e with log := [] }
      generalize conclude none e.log e.st { e with log := [] } = t at h
      generalize (Event.granted e.st { e with log := [] }).st = w at h
      rw [h]
      exact rfl
    · exact ⟨s, .refl, .refl s⟩
  · exact ⟨s, .refl, .refl s⟩

/-- The moves of an event from its onset. -/
theorem moves_railTurn (reserve : Option Link) (lead log : List Announcement) (m : State) :
    ∃ u, Moves m u ∧ Beside u (railTurn reserve lead ⟨m, log⟩) := by
  have hmoves := (moves_railEvent ⟨m, log⟩).trans (moves_granted m (railEvent ⟨m, log⟩))
  refine ⟨_, hmoves, ?_⟩
  have h := conclude_beside reserve lead m (railEvent ⟨m, log⟩)
  unfold railTurn
  generalize conclude reserve lead m (railEvent ⟨m, log⟩) = t at h
  generalize (Event.granted m (railEvent ⟨m, log⟩)).st = w at h
  rw [h]
  exact rfl

/-- The moves of an entry into FAULT, from the fault on. -/
theorem moves_fail (r : Rail) (k : FaultKind) (s : State) : ∃ u, Moves (s.enterFault r k) u ∧ Beside u (fail r k s) := by
  refine ⟨_, moves_faultGranted r k s, ?_⟩
  have h := conclude_beside none (faultSettled r k s).log (faultSettled r k s).st { faultSettled r k s with log := [] }
  rw [fail_eq]
  unfold faultGranted
  generalize faultSettled r k s = e at h
  generalize conclude none e.log e.st { e with log := [] } = t at h
  generalize (Event.granted e.st { e with log := [] }).st = w at h
  rw [h]
  exact rfl

/-- Of a rail's record, what leads up to an event writes the filtered PG alone. -/
theorem Light.rail {s t : State} (h : Light s t) (r : Rail) : t.rail r = { s.rail r with pg := (t.rail r).pg } := by
  cases h with
  | beside he =>
    rw [he]
    rfl
  | pg q level hb =>
    rw [hb.rail, State.rail_modRail]
    split
    · next h => rw [h]
    · rfl
  | sides w u hb =>
    rw [hb.rail]
    rfl

/-- A running rail is sent into its drain by a warm reset (R50). -/
theorem RailRuntime.restarted_of_running {x : RailRuntime} (h : x.state.running = true) (r : Rail) (rec : RailRecord) :
    x.restarted r rec = x.cleared.toDraining r rec .restart := by
  unfold RailRuntime.restarted RailRuntime.drainedIfRunning
  have hx : x.cleared.state.running = true := h
  rw [if_pos hx]
  exact if_neg (by rintro (h | h) <;> cases h)

theorem rampKept_drainRunning (s : State) (c : DrainCause) {r : Rail} (z : RailRuntime)
    (hr : (s.rail r).state = .ramping) : RampKept z ((s.drainRunning c).rail r) := by
  have h := rail_drainRunning s c r
  unfold RailRuntime.drainedIfRunning at h
  rw [if_pos (by rw [hr]; rfl)] at h
  exact .inl (.inr (.inr (frozen_of_toDraining h)))

/-- What an event begins with leaves a ramp as it is, or ends it. -/
theorem Onset.ramping {s m : State} {reserve : Option Link} {lead log : List Announcement} (h : Onset s reserve lead m log)
    {r : Rail} (hr : (s.rail r).state = .ramping) (hshape : RecordShape (s.rail r)) : RampKept (s.rail r) (m.rail r) := by
  have other {t : State} {q : Rail} {y : RailRuntime} (hb : Becomes s t q y) (hq : r ≠ q) : RampKept (s.rail r) (t.rail r) := by
    have h := (hb.other hq).onlyAims
    exact .inr ⟨h.state.trans hr, h.level, h.held, h.timer⟩
  cases h with
  | claim reserve l q v _ _ =>
    rw [State.rail_setClaim]
    split
    · next h =>
      subst h
      exact .inr ⟨hr, rfl, rfl, rfl⟩
    · exact .refl hr
  | without l st =>
    have h : (s.without l st).rail r = { s.rail r with claims := (s.rail r).claims.set l.val 0 l.isLt } := get_map ..
    rw [h]
    exact .inr ⟨hr, rfl, rfl, rfl⟩
  | on q hq =>
    have hb := becomes_enterOn s q
    have hmoves := moves_examineTarget (r := q)
      (e := ⟨s.enterOn q, [.enteredOn q ((s.enterOn q).rail q).level]⟩) (s.state_enterOn q)
    by_cases hrq : r = q
    · subst hrq
      exact hmoves.rampKept (.inl (.inl (s.state_enterOn r)))
    · exact hmoves.rampKept (other hb hrq)
  | expired q hq =>
    exact other (becomes_modRail s q _) fun h => nomatch (h ▸ hr).symm.trans hq
  | deferred q hq _ _ => exact other (becomes_finishDrain s q) fun h => nomatch (h ▸ hr).symm.trans hq
  | cleared l q hl =>
    exact other (becomes_moveRail s q _) fun h => nomatch hr.symm.trans (hshape.latch.mp (h ▸ hl))
  | supply st _ _ _ =>
    have hflag := s.rail_supplied (s.supply.entering s.part st) r
    unfold supplyFound
    dsimp only
    generalize s.supplied (s.supply.entering s.part st) = a at hflag
    have ha : (a.rail r).state = .ramping := by rw [hflag]; exact hr
    split
    · exact rampKept_drainRunning a .collapse _ ha
    · rw [hflag]
      exact .inr ⟨hr, rfl, rfl, rfl⟩
  | warm v =>
    have hrestart := rail_restartRails s r
    rw [RailRuntime.restarted_of_running (by rw [hr]; rfl)] at hrestart
    generalize s.restartRails = b at hrestart
    have hsupply := rail_restartSupply v b r
    generalize restartSupply v b = a at hsupply
    have hfrozen : (b.rail r).Frozen := frozen_of_toDraining hrestart
    refine .inl (.inr (.inr ?_))
    rw [hsupply]
    exact hfrozen

theorem Course.ramping {s t : State} (h : Course s t) (hc : s.lifecycle = .committed) {r : Rail}
    (hr : (s.rail r).state = .ramping) (hshape : RecordShape (s.rail r)) (ht : (t.rail r).state = .ramping) :
    (t.rail r).level = (s.rail r).level ∧ (t.rail r).held = (s.rail r).held ∧ (t.rail r).timer = (s.rail r).timer := by
  have light {a : State} (hl : Light s a) : (a.rail r).state = .ramping ∧ RecordShape (a.rail r)
      ∧ (a.rail r).level = (s.rail r).level ∧ (a.rail r).held = (s.rail r).held ∧ (a.rail r).timer = (s.rail r).timer := by
    rw [hl.rail r]
    exact ⟨hr, hshape.inputs _ _ _ _ _, rfl, rfl, rfl⟩
  cases h with
  | quiet hq =>
    cases hq with
    | light hl => exact (light hl).2.2
    | table hu => exact nomatch hu.symm.trans hc
    | powerOn hb =>
      rw [hb.rail, (idle_powerOnReset s).state r] at ht
      cases ht
  | event a m reserve lead log hl ho hb =>
    obtain ⟨ha, hshape', hlevel, hheld, htimer⟩ := light hl
    obtain ⟨u, hmoves, hu⟩ := moves_railTurn reserve lead log m
    have hkept := hmoves.rampKept (ho.ramping ha hshape')
    rw [hb.rail, hu.rail] at ht ⊢
    obtain ⟨hlevel', hheld', htimer'⟩ := hkept.of_ramping ht
    exact ⟨hlevel'.trans hlevel, hheld'.trans hheld, htimer'.trans htimer⟩
  | fault a q k hl hq hb =>
    obtain ⟨ha, -, hlevel, hheld, htimer⟩ := light hl
    obtain ⟨u, hmoves, hu⟩ := moves_fail q k a
    have hentered : RampKept (a.rail r) ((a.enterFault q k).rail r) := by
      by_cases hrq : r = q
      · subst hrq
        exact .inl (.inr (.inr (.inl (becomes_enterFault a r k).self.state)))
      · have h := ((becomes_enterFault a q k).other hrq).onlyAims
        exact .inr ⟨h.state.trans ha, h.level, h.held, h.timer⟩
    rw [hb.rail, hu.rail] at ht ⊢
    obtain ⟨hlevel', hheld', htimer'⟩ := (hmoves.rampKept hentered).of_ramping ht
    exact ⟨hlevel'.trans hlevel, hheld'.trans hheld, htimer'.trans htimer⟩

/-- A command as the step that takes it from the front of the queue. -/
theorem step_of_exec {c : Instr} {s t : State} (h : exec c s = .next t) :
    step { s with pending := c :: s.pending } = .next t := h

theorem Coherent.queueExact {s : State} (hs : Coherent s) : QueueExact s := ⟨hs.kept, hs.head⟩

theorem queueExact_of_exec {c : Instr} {s t : State} (hs : Coherent s) (h : exec c s = .next t) : QueueExact t :=
  (stepsKeepQueueExact { s with pending := c :: s.pending } t (hs.queueExact.same ⟨rfl, rfl, rfl, rfl, fun _ => rfl⟩) hs.idle
    (step_of_exec h)).1

theorem linesFollow_of_exec {c : Instr} {s t : State} (hs : Coherent s) (h : exec c s = .next t) : LinesFollow t :=
  stepsKeepLines { s with pending := c :: s.pending } t hs.lines (step_of_exec h)

theorem QueueKept.queued_of_requestOf {s : State} (hs : QueueKept s) {r : Rail} (h : s.requestOf r = none) :
    s.queued r = false := by
  refine Bool.eq_false_iff.mpr fun hq => ?_
  obtain ⟨q, hmem, rfl⟩ := (s.queued_iff r).mp hq
  have hentry := (hs.entry q hmem).1
  rw [h] at hentry
  cases hentry

/-- Settles O37: no move of an event touches a ramp but to end it. -/
theorem rampGoesOnToItsLevel : Obligations.RampGoesOnToItsLevel := by
  intro c s t r hs hexec hr ht
  have hc : s.lifecycle = .committed := by
    cases hlife : s.lifecycle with
    | committed => rfl
    | uncommitted =>
      have h := ((idleBeforeCommit_iff s).mp hs.idle hlife).state r
      rw [hr] at h
      cases h
  have hqueued : t.queued r = false := (queueExact_of_exec hs hexec).toQueueKept.queued_of_requestOf
    (State.requestOf_of_not_waiting (by rw [ht]; nofun) (by rw [ht]; nofun))
  have hkept : (t.rail r).level = (s.rail r).level ∧ (t.rail r).held = (s.rail r).held
      ∧ ((t.rail r).timer = (s.rail r).timer ∨ (c = .timestampTick ∧ (t.rail r).timer = (s.rail r).timer.tick)) := by
    rcases course_of_exec hexec with hcourse | ⟨rfl, htick⟩ | ⟨q, k, hgrant⟩
    · obtain ⟨hlevel, hheld, htimer⟩ := hcourse.ramping hc hr (hs.shape r) ht
      exact ⟨hlevel, hheld, .inl htimer⟩
    · have hrail := s.rail_tickTimers r
      generalize s.tickTimers = a at htick hrail
      subst htick
      change (a.rail r).level = _ ∧ (a.rail r).held = _ ∧ ((a.rail r).timer = _ ∨ _ ∧ (a.rail r).timer = _)
      rw [hrail]
      exact ⟨rfl, rfl, .inr ⟨rfl, rfl⟩⟩
    · obtain ⟨u, hmoves, hu⟩ := moves_grantHead q k s
      rw [hgrant, hu.rail] at ht ⊢
      obtain ⟨hlevel, hheld, htimer⟩ := (hmoves.rampKept (.refl hr)).of_ramping ht
      exact ⟨hlevel, hheld, .inl htimer⟩
  obtain ⟨hlevel, hheld, htimer⟩ := hkept
  obtain ⟨hen, hlvl⟩ := linesFollow_of_exec hs hexec r
  refine ⟨hlevel, ?_, ?_, hheld, hqueued, htimer⟩
  · rw [hlvl, (hs.lines r).2, hlevel]
  · rw [hen, ht]
    rfl

end Sys2Proof.Machine
end

/-! ### Rails in the order of the graph (R7) -/

section
namespace Sys2Proof.Machine

/-- No rail stands above itself. -/
def Acyclic (s : State) : Prop := ∀ r : Rail, ¬ Above s r r

theorem State.mem_childrenOf_iff (s : State) (p c : Rail) : c ∈ s.childrenOf p ↔ s.isParent p c = true := by
  simp only [State.childrenOf, List.mem_filter, mem_allRails, true_and]

theorem Acyclic.not_self {s : State} (hs : Acyclic s) (r : Rail) : s.isParent r r = false :=
  Bool.eq_false_iff.mpr fun h => hs r (.of_isParent h)

/-- Going down ends: a rail has more rails above it than each rail above it has. -/
theorem Acyclic.wellFounded_below {s : State} (hs : Acyclic s) : WellFounded fun a b : Rail => Above s b a :=
  Subrelation.wf (r := (measure fun r => Config.railRounds - railCount (s.ancestors r)).rel)
    (fun {a b} h => by
      have hlt : railCount (s.ancestors b) < railCount (s.ancestors a) := railCount_ancestors_lt hs h
      have hle : railCount (s.ancestors a) ≤ Config.railRounds := railCount_le _
      change Config.railRounds - railCount (s.ancestors a) < Config.railRounds - railCount (s.ancestors b)
      omega)
    (measure _).wf

/-- Among rails that are not all listed there is one whose children are. -/
theorem Acyclic.exists_next {s : State} (hs : Acyclic s) {listed : List Rail} {r : Rail} (hr : r ∉ listed) :
    ∃ q, q ∉ listed ∧ ∀ c, s.isParent q c = true → c ∈ listed := by
  induction r using hs.wellFounded_below.induction with
  | _ r ih =>
    by_cases hall : ∀ c, s.isParent r c = true → c ∈ listed
    · exact ⟨r, hr, hall⟩
    · obtain ⟨c, hc⟩ := Classical.not_forall.mp hall
      obtain ⟨hparent, hc⟩ := Classical.not_imp.mp hc
      exact ih c (.of_isParent hparent) hc

/-- A list of rails without repetition in which each stands after all its children. -/
structure ChildrenFirst (s : State) (listed : List Rail) : Prop where
  once : listed.Nodup
  order : listed.Pairwise fun a b => s.isParent a b = false
  closed : ∀ r ∈ listed, ∀ c, s.isParent r c = true → c ∈ listed

theorem childrenFirst_nil (s : State) : ChildrenFirst s [] := ⟨List.nodup_nil, .nil, nofun⟩

/-- The rails that a round of `State.childFirstFrom` lists. -/
def State.nextListed (s : State) (listed : List Rail) : List Rail :=
  allRails.filter fun r => !listed.contains r && (s.childrenOf r).all listed.contains

theorem State.mem_nextListed_iff (s : State) (listed : List Rail) (r : Rail) :
    r ∈ s.nextListed listed ↔ r ∉ listed ∧ ∀ c, s.isParent r c = true → c ∈ listed := by
  simp only [State.nextListed, List.mem_filter, mem_allRails, true_and, Bool.and_eq_true, Bool.not_eq_true',
    List.all_eq_true, s.mem_childrenOf_iff, List.contains_iff_mem]
  rw [← Bool.not_eq_true, List.contains_iff_mem]

theorem ChildrenFirst.next {s : State} {listed : List Rail} (h : ChildrenFirst s listed) :
    ChildrenFirst s (listed ++ s.nextListed listed) := by
  have hnext := s.mem_nextListed_iff listed
  refine ⟨List.nodup_append.mpr ⟨h.once, nodup_allRails.filter _, ?_⟩, List.pairwise_append.mpr ⟨h.order, ?_, ?_⟩, ?_⟩
  · rintro a ha b hb rfl
    exact ((hnext a).mp hb).1 ha
  · exact List.Pairwise.imp_of_mem (R := fun _ _ => True)
      (fun {a b} ha hb _ => Bool.eq_false_iff.mpr fun hab => ((hnext b).mp hb).1 (((hnext a).mp ha).2 b hab))
      (List.pairwise_of_forall fun _ _ => trivial)
  · exact fun a ha b hb => Bool.eq_false_iff.mpr fun hab => ((hnext b).mp hb).1 (h.closed a ha b hab)
  · intro r hr c hc
    rcases List.mem_append.mp hr with hr | hr
    · exact List.mem_append_left _ (h.closed r hr c hc)
    · exact List.mem_append_left _ (((hnext r).mp hr).2 c hc)

theorem State.childFirstFrom_succ (s : State) (n : Nat) (listed : List Rail) :
    s.childFirstFrom (n + 1) listed =
      if s.nextListed listed = [] then listed else s.childFirstFrom n (listed ++ s.nextListed listed) := by
  conv => lhs; unfold State.childFirstFrom
  change (match s.nextListed listed with | [] => listed | next => s.childFirstFrom n (listed ++ next)) = _
  split
  · next h => rw [if_pos h]
  · next h => rw [if_neg h]

theorem Acyclic.childFirstFrom {s : State} (hs : Acyclic s) (n : Nat) {listed : List Rail} (h : ChildrenFirst s listed)
    (hn : Config.railRounds ≤ railCount listed + n) :
    ChildrenFirst s (s.childFirstFrom n listed) ∧ ∀ r, r ∈ s.childFirstFrom n listed := by
  induction n generalizing listed with
  | zero => exact ⟨h, mem_of_railCount_eq (Nat.le_antisymm (railCount_le _) hn)⟩
  | succ n ih =>
    rw [State.childFirstFrom_succ]
    split
    · next hnil =>
      refine ⟨h, fun r => Classical.byContradiction fun hr => ?_⟩
      obtain ⟨q, hq⟩ := hs.exists_next hr
      exact List.not_mem_nil (hnil ▸ (s.mem_nextListed_iff listed q).mpr hq)
    · next hnil =>
      obtain ⟨q, hq⟩ := List.exists_mem_of_ne_nil _ hnil
      have hgrow := railCount_lt (List.subset_append_left listed (s.nextListed listed)) (List.mem_append_right listed hq)
        ((s.mem_nextListed_iff listed q).mp hq).1
      exact ih h.next (by omega)

/-- Every rail once, each after all its children. -/
theorem Acyclic.childFirst {s : State} (hs : Acyclic s) : ChildrenFirst s s.childFirst ∧ ∀ r, r ∈ s.childFirst := by
  obtain ⟨hfirst, hall⟩ := hs.childFirstFrom Config.railRounds (childrenFirst_nil s) (Nat.le_add_left ..)
  have hnone : (allRails.filter fun r => !(s.childFirstFrom Config.railRounds []).contains r) = [] :=
    List.filter_eq_nil_iff.mpr fun r _ => by
      rw [List.contains_iff_mem.mpr (hall r)]
      exact Bool.false_ne_true
  unfold State.childFirst
  dsimp only
  rw [hnone, List.append_nil]
  exact ⟨hfirst, hall⟩

/-- The graph is that of the table. -/
theorem Above.of_records {s t : State} (h : t.records = s.records) {a b : Rail} (hab : Above t a b) : Above s a b := by
  have hrecord : ∀ r, t.record r = s.record r := State.record_of_records_eq h
  have hparent : ∀ p c, t.isParent p c = s.isParent p c := State.isParent_of_records_eq h
  induction hab with
  | parent b hd hp => exact .parent _ b (by rw [← hrecord]; exact hd) (by rw [← hparent]; exact hp)
  | step b c _ hd hp ih => exact .step _ b c ih (by rw [← hrecord]; exact hd) (by rw [← hparent]; exact hp)

theorem Acyclic.of_records {s t : State} (hs : Acyclic s) (h : t.records = s.records) : Acyclic t := fun r hr =>
  hs r (hr.of_records h)

/-- What a table that passes the checks of COMMIT gives the rails (R7, R169). -/
structure GoodTable (s : State) : Prop where
  acyclic : Acyclic s
  levels : ∀ r, (s.record r).defined = true → 1 ≤ (s.record r).levelCount.toNat
  costs : ∀ r, (s.record r).defined = true → ∀ m n, m ≤ n → n ≤ (s.record r).levelCount.toNat →
    (s.record r).costOf m ≤ (s.record r).costOf n

theorem GoodTable.of_records {s t : State} (hs : GoodTable s) (h : t.records = s.records) : GoodTable t := by
  have hrecord : ∀ r, t.record r = s.record r := State.record_of_records_eq h
  refine ⟨hs.acyclic.of_records h, fun r => ?_, fun r => ?_⟩
  · rw [hrecord]
    exact hs.levels r
  · rw [hrecord]
    exact hs.costs r

/-- Costs that do not decrease from one entry to the next do not decrease. -/
theorem costOf_mono {x : RailRecord} (h : ∀ (i : Nat) (c d : BitVec 16), x.costs[i]? = some c → x.costs[i + 1]? = some d →
    c.toNat ≤ d.toNat) {m n : Nat} (hmn : m ≤ n) (hn : n ≤ x.costs.length) : x.costOf m ≤ x.costOf n := by
  have hstep : ∀ n, n + 1 ≤ x.costs.length → x.costOf n ≤ x.costOf (n + 1) := fun n hn => by
    cases n with
    | zero => exact Nat.zero_le _
    | succ n =>
      have hc : x.costs[n]? = some x.costs[n] := List.getElem?_eq_getElem (by omega)
      have hd : x.costs[n + 1]? = some x.costs[n + 1] := List.getElem?_eq_getElem (by omega)
      have hle := h n _ _ hc hd
      simpa only [RailRecord.costOf, List.getD_eq_getElem?_getD, hc, hd, Option.getD_some] using hle
  induction hmn with
  | refl => exact Nat.le_refl _
  | step _ ih => exact Nat.le_trans (ih (Nat.le_of_succ_le hn)) (hstep _ hn)

theorem goodTable_of_commitFault {s : State} (hcosts : ∀ r, (s.record r).costs.length = (s.record r).levelCount.toNat)
    (h : commitFault s = none) : GoodTable s := by
  have hpart := partFault_eq_none_of_commitFault h
  have hsome : ∃ r, (s.record r).defined = true := by
    refine Classical.byContradiction fun hnone => ?_
    rw [commitFault_of_noRails hpart fun r => Bool.eq_false_iff.mpr fun hr => hnone ⟨r, hr⟩] at h
    cases h
  obtain ⟨q, hq⟩ := hsome
  rw [commitFault_of_defined hpart hq] at h
  have hrails : ∀ r, railFaultAt s r = none := by
    split at h
    · cases h
    · next hnone =>
      intro r
      exact Option.map_eq_none_iff.mp (List.findSome?_eq_none_iff.mp hnone r (mem_allRails r))
  rw [← commitFault_of_defined hpart hq] at h
  have hgood (r : Rail) (hr : (s.record r).defined = true) := (railFaultAt_eq_none_iff s r).mp (hrails r) hr
  refine ⟨(PassesOtherChecks.commitFault_eq_none_iff ⟨hpart, ⟨q, hq⟩, hrails⟩).mp h, fun r hr => ?_, fun r hr m n hmn hn => ?_⟩
  · exact ((levelsOk_iff _ _).mp (hgood r hr).1).1
  · exact costOf_mono ((costsOk_iff _ _).mp (hgood r hr).2.1).2.1 hmn (by rw [hcosts]; exact hn)

theorem TableSound.good {s : State} (hs : TableSound s) (hc : s.lifecycle = .committed) : GoodTable s :=
  goodTable_of_commitFault hs.costs (hs.passes hc)

end Sys2Proof.Machine
end

/-! ### The levels and the budget of one record (R51, R53, R73) -/

section
namespace Sys2Proof.Machine

/-- The budget that a record asks for in its state (R73). -/
def RailRuntime.dueBudget (rec : RailRecord) (x : RailRuntime) : Nat :=
  match x.state with
  | .off => 0
  | .waiting => 0
  | .ramping => rec.costOf x.level
  | .on => rec.costOf x.level
  | .slewing => max (rec.costOf x.level) (rec.costOf (x.slewOrigin.getD 0))
  | .draining => rec.costOf x.level
  | .fault => 0

theorem State.heldByRule_eq (s : State) (r : Rail) : s.heldByRule r = (s.rail r).dueBudget (s.record r) := rfl

/-- Budget, level, target, origin and claims of a record lie as its table record says. -/
structure RailSized (rec : RailRecord) (x : RailRuntime) : Prop where
  held : x.held = x.dueBudget rec
  level : x.level ≤ rec.levelCount.toNat
  target : x.target ≤ rec.levelCount.toNat
  origin : x.slewOrigin.getD 0 ≤ rec.levelCount.toNat
  claims : ∀ l : Link, x.claims.get l ≤ rec.levelCount.toNat
  absent : rec.defined = false → x.state = .off ∧ x.target = 0 ∧ ∀ l : Link, x.claims.get l = 0
  powered : x.state.running = true ∨ x.state = .draining → 1 ≤ x.level

/-- A record has acted on its target as far as its state lets it (R26, R27, R31, R33). -/
structure Acted (x : RailRuntime) : Prop where
  off : x.state = .off → x.target = 0
  waiting : x.state = .waiting → x.target ≠ 0
  ramping : x.state = .ramping → x.target ≠ 0
  on : x.state = .on → x.level ≤ x.target

theorem Acted.of_state {x : RailRuntime} (h : x.state = .slewing ∨ x.state = .draining ∨ x.state = .fault) : Acted x := by
  constructor
  all_goals
    intro hx
    rw [hx] at h
    rcases h with h | h | h <;> cases h

theorem SameButHolds.acted {x y : RailRuntime} (h : SameButHolds x y) (hx : Acted x) : Acted y := by
  rw [h]
  exact ⟨hx.off, hx.waiting, hx.ramping, hx.on⟩

theorem SameButHolds.sized {rec : RailRecord} {x y : RailRuntime} (h : SameButHolds x y) (hx : RailSized rec x) :
    RailSized rec y := by
  rw [h]
  exact ⟨hx.held, hx.level, hx.target, hx.origin, hx.claims, hx.absent, hx.powered⟩

section
variable {r : Rail} {rec : RailRecord} {x : RailRuntime} (hx : RailSized rec x)
include hx

theorem RailSized.defined (h : x.state ≠ .off) : rec.defined = true := by
  cases hd : rec.defined with
  | true => rfl
  | false => exact absurd (hx.absent hd).1 h

theorem RailSized.defined_of_target (h : x.target ≠ 0) : rec.defined = true := by
  cases hd : rec.defined with
  | true => rfl
  | false => exact absurd (hx.absent hd).2.1 h

theorem RailSized.lines : RailSized rec (driveLines r x) :=
  ⟨hx.held, hx.level, hx.target, hx.origin, hx.claims, hx.absent, hx.powered⟩

theorem RailSized.aimed {n : Nat} (hn : n ≤ rec.levelCount.toNat) (hd : rec.defined = false → n = 0) :
    RailSized rec { x with target := n } :=
  ⟨hx.held, hx.level, hn, hx.origin, hx.claims, fun h => ⟨(hx.absent h).1, hd h, (hx.absent h).2.2⟩, hx.powered⟩

/-- A record sent into a state without power, its budget given back. -/
theorem RailSized.unpowered {y : RailRuntime} (hstate : y.state = .off ∨ y.state = .waiting ∨ y.state = .fault)
    (hheld : y.held = 0) (hlevel : y.level = 0) (htarget : y.target = x.target ∨ y.target = 0)
    (horigin : y.slewOrigin.getD 0 = 0 ∨ y.slewOrigin = x.slewOrigin) (hclaims : ∀ l, y.claims.get l = x.claims.get l ∨ y.claims.get l = 0)
    (hd : rec.defined = true ∨ y.state = .off) : RailSized rec y where
  held := by
    unfold RailRuntime.dueBudget
    rcases hstate with h | h | h <;> rw [h, hheld]
  level := by rw [hlevel]; exact Nat.zero_le _
  target := by
    rcases htarget with h | h <;> rw [h]
    · exact hx.target
    · exact Nat.zero_le _
  origin := by
    rcases horigin with h | h <;> rw [h]
    · exact Nat.zero_le _
    · exact hx.origin
  claims l := by
    rcases hclaims l with h | h <;> rw [h]
    · exact hx.claims l
    · exact Nat.zero_le _
  absent h := by
    obtain ⟨-, ht, hc⟩ := hx.absent h
    refine ⟨hd.resolve_left (by rw [h]; nofun), htarget.elim (·.trans ht) id, fun l => (hclaims l).elim (·.trans (hc l)) id⟩
  powered h := by
    rcases hstate with hs | hs | hs <;> simp [hs, RailState.running] at h

theorem RailSized.toWaiting (hs : x.state = .off) (ht : x.target ≠ 0) : RailSized rec (x.toWaiting r) := by
  refine RailSized.lines (hx.unpowered (.inr (.inl rfl)) ?_ rfl (.inl rfl) (.inr rfl) (fun _ => .inl rfl) (.inl ?_))
  · have h := hx.held
    unfold RailRuntime.dueBudget at h
    rwa [hs] at h
  · exact hx.defined_of_target ht

theorem RailSized.toOff (hs : x.state = .waiting) : RailSized rec (x.toOff r) := by
  refine RailSized.lines (hx.unpowered (.inl rfl) ?_ rfl (.inl rfl) (.inr rfl) (fun _ => .inl rfl) (.inr rfl))
  have h := hx.held
  unfold RailRuntime.dueBudget at h
  rwa [hs] at h

theorem RailSized.toFault (k : FaultKind) (hs : x.state ≠ .off) : RailSized rec (x.toFault r k) :=
  RailSized.lines (hx.unpowered (.inr (.inr rfl)) rfl rfl (.inl rfl) (.inl rfl) (fun _ => .inl rfl) (.inl (hx.defined hs)))

theorem RailSized.toDrained (hs : x.state = .draining) : RailSized rec (x.toDrained r) := by
  refine RailSized.lines (hx.unpowered ?_ rfl rfl (.inl rfl) (.inr rfl) (fun _ => .inl rfl) (.inl (hx.defined (by rw [hs]; nofun))))
  dsimp only
  split
  · exact .inl rfl
  · exact .inr (.inl rfl)

theorem RailSized.toCleared (hs : x.state = .fault) : RailSized rec (x.toCleared r) := by
  refine RailSized.lines (hx.unpowered ?_ ?_ rfl (.inl rfl) (.inr rfl) (fun _ => .inl rfl) (.inl (hx.defined (by rw [hs]; nofun))))
  · dsimp only
    split
    · exact .inl rfl
    · exact .inr (.inl rfl)
  · have h := hx.held
    unfold RailRuntime.dueBudget at h
    rwa [hs] at h

/-- A slew over, its budget is that of the level. -/
theorem RailSized.trimmed_eq (h : x.state.running = true ∨ x.state = .draining) : x.trimmed rec = rec.costOf x.level := by
  have hheld := hx.held
  unfold RailRuntime.trimmed
  unfold RailRuntime.dueBudget at hheld
  split
  · next hs =>
    rw [hs] at hheld
    dsimp only at hheld
    rw [hheld]
    exact Nat.min_eq_right (Nat.le_max_left ..)
  · next hs =>
    cases hst : x.state with
    | ramping => rw [hst] at hheld; exact hheld
    | on => rw [hst] at hheld; exact hheld
    | draining => rw [hst] at hheld; exact hheld
    | slewing => exact absurd hst hs
    | off => simp [hst, RailState.running] at h
    | waiting => simp [hst, RailState.running] at h
    | fault => simp [hst, RailState.running] at h

theorem RailSized.toDraining (c : DrainCause) (hs : x.state.running = true) : RailSized rec (x.toDraining r rec c) := by
  have hd : rec.defined = true := hx.defined fun h => by rw [h] at hs; cases hs
  refine RailSized.lines
    ⟨hx.trimmed_eq (.inl hs), hx.level, hx.target, Nat.zero_le _, hx.claims, fun h => ?_, fun _ => hx.powered (.inl hs)⟩
  rw [hd] at h
  cases h

theorem RailSized.toOn (hs : x.state.running = true) : RailSized rec (x.toOn r rec) := by
  have hd : rec.defined = true := hx.defined fun h => by rw [h] at hs; cases hs
  refine RailSized.lines
    ⟨hx.trimmed_eq (.inl hs), hx.level, hx.target, Nat.zero_le _, hx.claims, fun h => ?_, fun _ => hx.powered (.inl hs)⟩
  rw [hd] at h
  cases h

/-- A rail in ON holds the cost of its level. -/
theorem RailSized.held_on (hs : x.state = .on) : x.held = rec.costOf x.level := by
  have hheld := hx.held
  unfold RailRuntime.dueBudget at hheld
  rwa [hs] at hheld

theorem RailSized.held_waiting (hs : x.state = .waiting) : x.held = 0 := by
  have hheld := hx.held
  unfold RailRuntime.dueBudget at hheld
  rwa [hs] at hheld

/-- A slew down keeps its budget: the larger of the costs of its two levels (R36). -/
theorem RailSized.toSlewingDown (time : Nat) (hs : x.state = .on) (ht : x.target ≠ 0)
    (hcost : rec.costOf x.target ≤ rec.costOf x.level) : RailSized rec (x.toSlewing r time) := by
  have hd : rec.defined = true := hx.defined fun h => by rw [h] at hs; cases hs
  refine RailSized.lines ⟨?_, hx.target, hx.target, hx.level, hx.claims, fun h => ?_, fun _ => Nat.one_le_iff_ne_zero.mpr ht⟩
  · unfold RailRuntime.dueBudget
    exact (hx.held_on hs).trans (Nat.max_eq_right hcost).symm
  · rw [hd] at h
    cases h

/-- A RAISE granted adds the rise of the cost (R35). -/
theorem RailSized.toSlewingUp (time : Nat) (hs : x.state = .on) (hl : x.level < x.target)
    (hcost : rec.costOf x.level ≤ rec.costOf x.target) :
    RailSized rec (({ x with held := x.held + (rec.costOf x.target - rec.costOf x.level) } : RailRuntime).toSlewing r time) := by
  have hd : rec.defined = true := hx.defined fun h => by rw [h] at hs; cases hs
  refine RailSized.lines ⟨?_, hx.target, hx.target, hx.level, hx.claims, fun h => ?_, fun _ => ?_⟩
  · unfold RailRuntime.dueBudget
    dsimp only
    rw [hx.held_on hs, Option.getD_some, Nat.max_eq_left hcost]
    omega
  · rw [hd] at h
    cases h
  · exact Nat.one_le_iff_ne_zero.mpr (Nat.ne_zero_of_lt hl)

/-- A START granted takes the cost of the target (R28). -/
theorem RailSized.toRamping (time : Nat) (hs : x.state = .waiting) (ht : x.target ≠ 0) :
    RailSized rec (({ x with held := x.held + rec.costOf x.target } : RailRuntime).toRamping r time) := by
  have hd : rec.defined = true := hx.defined fun h => by rw [h] at hs; cases hs
  refine RailSized.lines ⟨?_, hx.target, hx.target, hx.origin, hx.claims, fun h => ?_, fun _ => Nat.one_le_iff_ne_zero.mpr ht⟩
  · unfold RailRuntime.dueBudget
    dsimp only
    rw [hx.held_waiting hs, Nat.zero_add]
  · rw [hd] at h
    cases h

/-- A slew down called back drains from the level left behind (R37, R54). -/
theorem RailSized.wholeFall {level : Nat} (hs : x.state = .slewing) (hheld : x.held = rec.costOf level) (hpos : 1 ≤ level)
    (hlevel : level ≤ rec.levelCount.toNat) : RailSized rec ((x.calledBack r level).toDraining r rec .normal) := by
  have hd : rec.defined = true := hx.defined fun h => by rw [h] at hs; cases hs
  refine RailSized.lines ⟨hheld, hlevel, hx.target, Nat.zero_le _, hx.claims, fun h => ?_, fun _ => hpos⟩
  rw [hd] at h
  cases h

theorem RailSized.finished (hs : x.state = .draining) : RailSized rec { x with timer := .stopped, drainFinished := true } :=
  ⟨hx.held, hx.level, hx.target, hx.origin, hx.claims, hx.absent, fun _ => hx.powered (.inr hs)⟩

theorem RailSized.inputs {cs : Vector Nat 4} {b : Bool} {pg : Line}
    (hcs : ∀ l, cs.get l ≤ rec.levelCount.toNat) (hd : rec.defined = false → ∀ l, cs.get l = 0) :
    RailSized rec { x with claims := cs, suspended := b, pg := pg } :=
  ⟨hx.held, hx.level, hx.target, hx.origin, hcs, fun h => ⟨(hx.absent h).1, (hx.absent h).2.1, hd h⟩, hx.powered⟩

end

/-! #### Targets -/

theorem foldl_max_le {α : Type} {f : α → Nat} {n : Nat} {xs : List α} (h : ∀ a ∈ xs, f a ≤ n) {m : Nat} (hm : m ≤ n) :
    xs.foldl (fun m x => max m (f x)) m ≤ n := by
  induction xs generalizing m with
  | nil => exact hm
  | cons a xs ih =>
    exact ih (fun b hb => h b (List.mem_cons_of_mem a hb)) (Nat.max_le.mpr ⟨hm, h a List.mem_cons_self⟩)

theorem RailSized.effectiveDemand_le {rec : RailRecord} {x : RailRuntime} (hx : RailSized rec x) :
    x.effectiveDemand ≤ rec.levelCount.toNat := by
  unfold RailRuntime.effectiveDemand
  split
  · exact Nat.zero_le _
  · exact foldl_max_le (fun l _ => hx.claims l) (Nat.zero_le _)

/-- The target that a rail's inputs give lies within its level count. -/
theorem State.targetFor_le {s : State} {r : Rail} (hx : RailSized (s.record r) (s.rail r))
    (hcount : (s.record r).defined = true → 1 ≤ (s.record r).levelCount.toNat) :
    s.targetFor r ≤ (s.record r).levelCount.toNat := by
  have hdemand := hx.effectiveDemand_le
  unfold State.targetFor RailRuntime.demandedTarget
  split
  · next hd =>
    split
    · split
      · exact hcount hd
      · exact Nat.zero_le _
    · exact hdemand
  · exact Nat.zero_le _

theorem State.targetFor_absent {s : State} {r : Rail} (h : (s.record r).defined = false) : s.targetFor r = 0 := by
  unfold State.targetFor
  rw [h]
  rfl

/-- A defined rail without a target is not held (R53). -/
theorem State.isHeld_of_targetFor {s : State} {r : Rail} (h : s.targetFor r = 0) (hd : (s.record r).defined = true) :
    (s.rail r).isHeld = false := by
  unfold State.targetFor RailRuntime.demandedTarget at h
  rw [if_pos hd] at h
  cases hheld : (s.rail r).isHeld with
  | false => rfl
  | true =>
    rw [hheld] at h
    split at h
    · cases h
    · next hne => exact absurd h hne

theorem RailRuntime.holdSet_of_isHeld {x : RailRuntime} (h : x.isHeld = false) (c : Rail) : x.holdSet.get c = false := by
  unfold RailRuntime.isHeld at h
  rw [List.any_eq_false] at h
  exact Bool.eq_false_iff.mpr (h c (mem_allRails c))

end Sys2Proof.Machine
end

/-! ### What the targets ask, taken rail by rail (R33, R43, R45, R54) -/

section
namespace Sys2Proof.Machine

/-- The record of a rail that has acted on its target (R26, R27, R31, R33, R36, R37). -/
def RailRuntime.acts (r : Rail) (rec : RailRecord) (x : RailRuntime) : RailRuntime :=
  match x.state with
  | .off => if x.target = 0 then x else x.toWaiting r
  | .waiting => if x.target = 0 then x.toOff r else x
  | .ramping => if x.target = 0 then x.toDraining r rec .normal else x
  | .on =>
    if x.target = 0 then x.toDraining r rec .normal
    else if x.target < x.level then x.toSlewing r rec.slewTime.toNat else x
  | .slewing => x
  | .draining => x
  | .fault => x

theorem RailRuntime.acts_of_on_zero (r : Rail) (rec : RailRecord) (x : RailRuntime) (hx : x.state = .on)
    (ht : x.target = 0) : RailRuntime.acts r rec x = x.toDraining r rec .normal := by
  unfold RailRuntime.acts
  rw [hx]
  exact if_pos ht

theorem RailRuntime.acts_withHoldSet (r : Rail) (rec : RailRecord) (x : RailRuntime) (hs : Vector Bool 16) :
    RailRuntime.acts r rec { x with holdSet := hs } = { x.acts r rec with holdSet := hs } := by
  obtain ⟨st⟩ := x
  unfold RailRuntime.acts
  cases st with
  | off => dsimp only; split <;> rfl
  | waiting => dsimp only; split <;> rfl
  | ramping => dsimp only; split <;> rfl
  | on =>
    dsimp only
    split
    · rfl
    · split <;> rfl
  | slewing => rfl
  | draining => rfl
  | fault => rfl

theorem Becomes.refl (s : State) (r : Rail) : Becomes s s r (s.rail r) := fun q => by
  split
  · next h => rw [h]; exact .refl _
  · exact .refl _

theorem becomes_examineTarget (r : Rail) (e : Event) (h : (e.st.rail r).state = .on) :
    Becomes e.st (examineTarget r e).st r ((e.st.rail r).acts r (e.st.record r)) := by
  unfold examineTarget RailRuntime.acts
  dsimp only
  rw [h]
  dsimp only
  split
  · exact becomes_enterDraining e.st r .normal
  · split
    · exact becomes_enterSlewing e.st r
    · exact .refl _ r

theorem becomes_actOnTarget (r : Rail) (e : Event) :
    Becomes e.st (actOnTarget r e).st r ((e.st.rail r).acts r (e.st.record r)) := by
  cases h : (e.st.rail r).state with
  | on =>
    have hact : actOnTarget r e = examineTarget r e := by
      unfold actOnTarget
      dsimp only
      rw [h]
    rw [hact]
    exact becomes_examineTarget r e h
  | off =>
    unfold actOnTarget RailRuntime.acts
    dsimp only
    rw [h]
    dsimp only
    split
    · exact .refl _ r
    · exact becomes_enterWaiting e.st r
  | waiting =>
    unfold actOnTarget RailRuntime.acts
    dsimp only
    rw [h]
    dsimp only
    split
    · exact becomes_leaveWaiting e.st r
    · exact .refl _ r
  | ramping =>
    unfold actOnTarget RailRuntime.acts
    dsimp only
    rw [h]
    dsimp only
    split
    · exact becomes_enterDraining e.st r .normal
    · exact .refl _ r
  | slewing =>
    unfold actOnTarget RailRuntime.acts
    dsimp only
    rw [h]
    exact .refl _ r
  | draining =>
    unfold actOnTarget RailRuntime.acts
    dsimp only
    rw [h]
    exact .refl _ r
  | fault =>
    unfold actOnTarget RailRuntime.acts
    dsimp only
    rw [h]
    exact .refl _ r

/-- The record of a rail that takes its target as its inputs give it. -/
def State.retargeted (s : State) (r : Rail) : RailRuntime :=
  RailRuntime.acts r (s.record r) { s.rail r with target := s.targetFor r }

theorem takeTarget_of_eq {r : Rail} {e : Event} (h : e.st.targetFor r = (e.st.rail r).target) : takeTarget r e = e := by
  unfold takeTarget
  dsimp only
  rw [if_pos h]

/-- A rail whose target changes acts on it, and announces a rise from 0. -/
theorem becomes_takeTarget {r : Rail} {e : Event} (h : e.st.targetFor r ≠ (e.st.rail r).target) :
    Becomes e.st (takeTarget r e).st r (e.st.retargeted r) := by
  have hfirst := becomes_modRail e.st r fun y => { y with target := e.st.targetFor r }
  have hrecord : ((e.st.modRail r fun y => { y with target := e.st.targetFor r }).record r) = e.st.record r := rfl
  have hact : ∀ e1 : Event, e1.st = (e.st.modRail r fun y => { y with target := e.st.targetFor r }) →
      Becomes e.st (actOnTarget r e1).st r (e.st.retargeted r) := fun e1 he => by
    have hsecond := becomes_actOnTarget r e1
    rw [he, hrecord] at hsecond
    exact hfirst.trans (g := RailRuntime.acts r (e.st.record r)) hsecond fun x hs => x.acts_withHoldSet r _ hs
  unfold takeTarget
  dsimp only
  rw [if_neg h]
  refine hact _ ?_
  split <;> rfl

section
variable (r : Rail) {rec : RailRecord} {x : RailRuntime}

theorem acted_acts : Acted (x.acts r rec) := by
  unfold RailRuntime.acts
  cases hs : x.state with
  | off =>
    dsimp only
    split
    · next ht => exact ⟨fun _ => ht, by rw [hs]; nofun, by rw [hs]; nofun, by rw [hs]; nofun⟩
    · next ht => exact ⟨nofun, fun _ => ht, nofun, nofun⟩
  | waiting =>
    dsimp only
    split
    · next ht => exact ⟨fun _ => ht, nofun, nofun, nofun⟩
    · next ht => exact ⟨by rw [hs]; nofun, fun _ => ht, by rw [hs]; nofun, by rw [hs]; nofun⟩
  | ramping =>
    dsimp only
    split
    · exact .of_state (.inr (.inl rfl))
    · next ht => exact ⟨by rw [hs]; nofun, by rw [hs]; nofun, fun _ => ht, by rw [hs]; nofun⟩
  | on =>
    dsimp only
    split
    · exact .of_state (.inr (.inl rfl))
    · split
      · exact .of_state (.inl rfl)
      · next hl => exact ⟨by rw [hs]; nofun, by rw [hs]; nofun, by rw [hs]; nofun, fun _ => Nat.le_of_not_lt hl⟩
  | slewing => exact .of_state (.inl hs)
  | draining => exact .of_state (.inr (.inl hs))
  | fault => exact .of_state (.inr (.inr hs))

theorem RailSized.acts (hx : RailSized rec x)
    (hcosts : rec.defined = true → ∀ m n, m ≤ n → n ≤ rec.levelCount.toNat → rec.costOf m ≤ rec.costOf n) :
    RailSized rec (x.acts r rec) := by
  unfold RailRuntime.acts
  cases hs : x.state with
  | off =>
    dsimp only
    split
    · exact hx
    · next ht => exact hx.toWaiting hs ht
  | waiting =>
    dsimp only
    split
    · exact hx.toOff hs
    · exact hx
  | ramping =>
    dsimp only
    split
    · exact hx.toDraining .normal (by rw [hs]; rfl)
    · exact hx
  | on =>
    have hrun : x.state.running = true := by rw [hs]; rfl
    dsimp only
    split
    · exact hx.toDraining .normal hrun
    · next ht =>
      split
      · next hl =>
        exact hx.toSlewingDown _ hs ht (hcosts (hx.defined (by rw [hs]; nofun)) _ _ (Nat.le_of_lt hl) hx.level)
      · exact hx
  | slewing => exact hx
  | draining => exact hx
  | fault => exact hx

/-- Acting on a target does not start a rail. -/
theorem running_of_acts (h : (x.acts r rec).state.running = true) : x.state.running = true := by
  unfold RailRuntime.acts at h
  cases hs : x.state with
  | off => rw [hs] at h; dsimp only at h; split at h <;> simp [hs, RailRuntime.toWaiting, driveLines, RailState.running] at h
  | waiting => rw [hs] at h; dsimp only at h; split at h <;> simp [hs, RailRuntime.toOff, driveLines, RailState.running] at h
  | ramping => rfl
  | on => rfl
  | slewing => rfl
  | draining => rw [hs] at h; simp [hs, RailState.running] at h
  | fault => rw [hs] at h; simp [hs, RailState.running] at h

/-- A rail that is up stays up but at a target of 0. -/
theorem up_acts (h : x.state.up = true) (ht : x.target ≠ 0) : (x.acts r rec).state.up = true := by
  unfold RailRuntime.acts
  cases hs : x.state with
  | off => rw [hs] at h; cases h
  | waiting => rw [hs] at h; cases h
  | ramping => rw [hs] at h; cases h
  | on =>
    dsimp only
    rw [if_neg ht]
    split
    · rfl
    · rw [hs]; rfl
  | slewing =>
    dsimp only
    rw [hs]
    rfl
  | draining => rw [hs] at h; cases h
  | fault => rw [hs] at h; cases h

theorem target_acts : (x.acts r rec).target = x.target := by
  unfold RailRuntime.acts
  split
  · split <;> rfl
  · split <;> rfl
  · split <;> rfl
  · split
    · rfl
    · split <;> rfl
  · rfl
  · rfl
  · rfl

theorem inputs_acts : (x.acts r rec).claims = x.claims ∧ (x.acts r rec).suspended = x.suspended := by
  unfold RailRuntime.acts
  split
  · split <;> exact ⟨rfl, rfl⟩
  · split <;> exact ⟨rfl, rfl⟩
  · split <;> exact ⟨rfl, rfl⟩
  · split
    · exact ⟨rfl, rfl⟩
    · split <;> exact ⟨rfl, rfl⟩
  · exact ⟨rfl, rfl⟩
  · exact ⟨rfl, rfl⟩
  · exact ⟨rfl, rfl⟩

end

/-! #### The part while it acts on an event -/

/-- What every rail keeps to while the part acts on an event. -/
structure Even (s : State) : Prop where
  table : GoodTable s
  shape : RecordsShaped s
  sized : ∀ r, RailSized (s.record r) (s.rail r)
  acted : ∀ r, Acted (s.rail r)
  holds : HoldsExact s

/-- The same, with the parents of every running rail up (R45). -/
structure Calm (s : State) : Prop extends Even s where
  up : ParentsUp s

theorem Even.of_moves {s t : State} {r : Rail} {y : RailRuntime} (hs : Even s) (hm : Moves s t) (hb : Becomes s t r y)
    (hsized : RailSized (s.record r) y) (hacted : Acted y) : Even t where
  table := hs.table.of_records hm.onlyRails.records
  shape := hm.keep (I := RecordsShaped) (fun _ _ h => recordRule_shape.move h) hs.shape
  sized q := by
    rw [hm.onlyRails.record]
    by_cases hq : q = r
    · subst hq
      exact hb.self.sized hsized
    · exact (hb.other hq).sized (hs.sized q)
  acted q := by
    by_cases hq : q = r
    · subst hq
      exact hb.self.acted hacted
    · exact (hb.other hq).acted (hs.acted q)
  holds := hm.holds hs.holds

/-- No child of a rail that is not up runs. -/
theorem ParentsUp.child {s : State} (hs : ParentsUp s) {r c : Rail} (hr : (s.rail r).state.up = false)
    (hc : s.isParent r c = true) : (s.rail c).state.running = false :=
  Bool.eq_false_iff.mpr fun hrun => by
    have h := hs c hrun r ((s.mem_parentsOf_iff r c).mpr hc)
    rw [hr] at h
    cases h

/-- The graph after a change of one rail: where it runs its parents are up, and where it is no longer up no child of it runs. -/
theorem ParentsUp.becomes {s t : State} {r : Rail} {y : RailRuntime} (hs : ParentsUp s) (hacyclic : Acyclic s)
    (ho : OnlyRails s t) (hb : Becomes s t r y)
    (hrun : y.state.running = true → ∀ p ∈ s.parentsOf r, (s.rail p).state.up = true)
    (hup : y.state.up = false → ∀ c, s.isParent r c = true → (s.rail c).state.running = false) : ParentsUp t := by
  have hother {q : Rail} (hq : q ≠ r) : (t.rail q).state = (s.rail q).state := (hb.other hq).state
  have hself : (t.rail r).state = y.state := hb.self.state
  intro c hc p hp
  rw [ho.parentsOf] at hp
  have hpc : s.isParent p c = true := (s.mem_parentsOf_iff p c).mp hp
  have hne : p ≠ c := fun h => hacyclic c (.of_isParent (h ▸ hpc))
  by_cases hcr : c = r
  · subst hcr
    rw [hother hne]
    exact hrun (hself ▸ hc) p hp
  · rw [hother hcr] at hc
    by_cases hpr : p = r
    · subst hpr
      rw [hself]
      refine Classical.byContradiction fun hdown => ?_
      rw [hup (Bool.eq_false_iff.mpr hdown) c hpc] at hc
      cases hc
    · rw [hother hpr]
      exact hs c hc p hp

theorem Calm.of_moves {s t : State} {r : Rail} {y : RailRuntime} (hs : Calm s) (hm : Moves s t) (hb : Becomes s t r y)
    (hsized : RailSized (s.record r) y) (hacted : Acted y)
    (hrun : y.state.running = true → ∀ p ∈ s.parentsOf r, (s.rail p).state.up = true)
    (hup : y.state.up = false → ∀ c, s.isParent r c = true → (s.rail c).state.running = false) : Calm t :=
  ⟨hs.toEven.of_moves hm hb hsized hacted, hs.up.becomes hs.table.acyclic hm.onlyRails hb hrun hup⟩

/-- A rail without a target has no running child: none holds it. -/
theorem HoldsExact.child_of_targetFor {s : State} (hs : HoldsExact s) {r c : Rail} (h : s.targetFor r = 0)
    (hd : (s.record r).defined = true) (hc : s.isParent r c = true) : (s.rail c).state.holding = false := by
  have hnot := RailRuntime.holdSet_of_isHeld (State.isHeld_of_targetFor h hd) c
  rwa [hs r c, hc, Bool.true_and] at hnot

theorem RailState.holding_of_running {x : RailState} (h : x.running = true) : x.holding = true := by
  cases x <;> simp_all [RailState.running, RailState.holding]

theorem RailState.running_of_up {x : RailState} (h : x.up = true) : x.running = true := by
  cases x <;> simp_all [RailState.running, RailState.up]

theorem Calm.takeTarget {e : Event} (hs : Calm e.st) (r : Rail) : Calm (takeTarget r e).st := by
  by_cases h : e.st.targetFor r = (e.st.rail r).target
  · rw [takeTarget_of_eq h]
    exact hs
  · have hsized : RailSized (e.st.record r) { e.st.rail r with target := e.st.targetFor r } :=
      (hs.sized r).aimed (State.targetFor_le (hs.sized r) (hs.table.levels r)) State.targetFor_absent
    refine hs.of_moves (moves_takeTarget r e) (becomes_takeTarget h) (hsized.acts r (hs.table.costs r)) (acted_acts r)
      (fun hrun => hs.up r (running_of_acts (x := { e.st.rail r with target := e.st.targetFor r }) r hrun)) fun hup c hc => ?_
    by_cases hx : (e.st.rail r).state.up = true
    · have ht : e.st.targetFor r = 0 := Classical.byContradiction fun hne => by
        rw [State.retargeted, up_acts (x := { e.st.rail r with target := e.st.targetFor r }) r hx hne] at hup
        cases hup
      have hd := (hs.sized r).defined (x := e.st.rail r) fun hoff => by
        rw [hoff] at hx
        cases hx
      have hnot := hs.holds.child_of_targetFor ht hd hc
      exact Bool.eq_false_iff.mpr fun hrun => by
        rw [RailState.holding_of_running hrun] at hnot
        cases hnot
    · exact hs.up.child (Bool.eq_false_iff.mpr hx) hc

theorem acted_toDrained (r : Rail) (x : RailRuntime) : Acted (x.toDrained r) := by
  unfold RailRuntime.toDrained driveLines
  by_cases ht : x.target = 0
  · simp only [if_pos ht]
    exact ⟨fun _ => ht, nofun, nofun, nofun⟩
  · simp only [if_neg ht]
    exact ⟨nofun, fun _ => ht, nofun, nofun⟩

theorem running_toDrained (r : Rail) (x : RailRuntime) : (x.toDrained r).state.running = false := by
  change (if x.target = 0 then RailState.off else RailState.waiting).running = false
  split <;> rfl

theorem takeDeferredOff_of_not {r : Rail} {e : Event}
    (h : ¬((e.st.rail r).state = .draining ∧ (e.st.rail r).drainFinished = true ∧ e.st.heldByDraining r = false)) :
    takeDeferredOff r e = e := if_neg h

theorem becomes_takeDeferredOff {r : Rail} {e : Event}
    (h : (e.st.rail r).state = .draining ∧ (e.st.rail r).drainFinished = true ∧ e.st.heldByDraining r = false) :
    Becomes e.st (takeDeferredOff r e).st r ((e.st.rail r).toDrained r) := by
  unfold takeDeferredOff
  dsimp only
  rw [if_pos h]
  exact becomes_finishDrain e.st r

theorem Calm.takeDeferredOff {e : Event} (hs : Calm e.st) (r : Rail) : Calm (takeDeferredOff r e).st := by
  by_cases h : (e.st.rail r).state = .draining ∧ (e.st.rail r).drainFinished = true ∧ e.st.heldByDraining r = false
  · refine hs.of_moves (moves_takeDeferredOff r e) (becomes_takeDeferredOff h) ((hs.sized r).toDrained h.1) (acted_toDrained r _)
      (fun hrun => ?_) fun _ c hc => hs.up.child (by rw [h.1]; rfl) hc
    rw [running_toDrained] at hrun
    cases hrun
  · rw [takeDeferredOff_of_not h]
    exact hs

/-! #### Every rail in turn -/

/-- A rail takes its target, and the end of its drain. -/
def takeTurn (e : Event) (r : Rail) : Event := takeDeferredOff r (takeTarget r e)

theorem settle_eq_foldl (e : Event) : settle e = e.st.childFirst.foldl takeTurn e := rfl

theorem moves_takeTurn (e : Event) (r : Rail) : Moves e.st (takeTurn e r).st :=
  (moves_takeTarget r e).trans (moves_takeDeferredOff r (takeTarget r e))

theorem Calm.takeTurn {e : Event} (hs : Calm e.st) (r : Rail) : Calm (takeTurn e r).st := (hs.takeTarget r).takeDeferredOff r

/-- The rail has the target that its inputs give, and does not stay in a drain that is over (R43, R53). -/
structure Aimed (s : State) (r : Rail) : Prop where
  target : (s.rail r).target = s.targetFor r
  finished : (s.rail r).drainFinished = true → s.heldByDraining r = true

/-- A rail that has nothing to take. -/
theorem takeTurn_of_aimed {e : Event} {r : Rail} (h : Aimed e.st r) : takeTurn e r = e := by
  unfold takeTurn
  rw [takeTarget_of_eq h.target.symm]
  refine takeDeferredOff_of_not fun ⟨_, hf, hd⟩ => ?_
  rw [h.finished hf] at hd
  cases hd

/-- A change of one rail leaves every rail that is not a parent of it as it was, its hold set too. -/
theorem Becomes.rail_eq {s t : State} {r q : Rail} {y : RailRuntime} (hb : Becomes s t r y) (hs : HoldsExact s)
    (ht : HoldsExact t) (ho : OnlyRails s t) (hq : q ≠ r) (hqr : s.isParent q r = false) : t.rail q = s.rail q := by
  have hsame := hb.other hq
  have hhold : (t.rail q).holdSet = (s.rail q).holdSet := vector_eq_of_get fun c => by
    rw [hs q c, ht q c, State.isParent_of_onlyRails ho]
    by_cases hc : c = r
    · subst hc
      rw [hqr]
      rfl
    · rw [(hb.other hc).state]
  rw [hsame, hhold]

theorem State.heldByDraining_iff (s : State) (r : Rail) :
    s.heldByDraining r = true ↔ ∃ c, (s.rail r).holdSet.get c = true ∧ (s.rail c).state = .draining := by
  simp only [State.heldByDraining, List.any_eq_true, mem_allRails, true_and, Bool.and_eq_true, beq_iff_eq]

/-- The inputs of a rail are its own record, its table record, and the states of its children. -/
theorem Aimed.congr {s t : State} {r : Rail} (h : Aimed s r) (hrail : t.rail r = s.rail r) (hrecord : t.record r = s.record r)
    (hchild : ∀ c, (s.rail r).holdSet.get c = true → (s.rail c).state = .draining → (t.rail c).state = .draining) : Aimed t r where
  target := by
    unfold State.targetFor
    rw [hrail, hrecord]
    exact h.target
  finished hf := by
    rw [hrail] at hf
    obtain ⟨c, hc, hst⟩ := (s.heldByDraining_iff r).mp (h.finished hf)
    exact (t.heldByDraining_iff r).mpr ⟨c, by rw [hrail]; exact hc, hchild c hc hst⟩

theorem Aimed.becomes {s t : State} {r q : Rail} {y : RailRuntime} (h : Aimed s q) (hb : Becomes s t r y) (hs : HoldsExact s)
    (ht : HoldsExact t) (ho : OnlyRails s t) (hq : q ≠ r) (hqr : s.isParent q r = false) : Aimed t q :=
  h.congr (hb.rail_eq hs ht ho hq hqr) (ho.record q) fun c hc hst => by
    have hcr : c ≠ r := by
      rintro rfl
      rw [hs q c, hqr] at hc
      cases hc
    rw [(hb.other hcr).state, hst]

/-- The turn of one rail leaves the rails that are not its parents as they were. -/
theorem rail_takeTurn {e : Event} (hs : Calm e.st) {r q : Rail} (hq : q ≠ r) (hqr : e.st.isParent q r = false) :
    (takeTurn e r).st.rail q = e.st.rail q := by
  have hmid := hs.takeTarget r
  have hend := hs.takeTurn r
  have ho := (moves_takeTarget r e).onlyRails
  have hfirst : (Machine.takeTarget r e).st.rail q = e.st.rail q := by
    by_cases h : e.st.targetFor r = (e.st.rail r).target
    · rw [takeTarget_of_eq h]
    · exact (becomes_takeTarget h).rail_eq hs.holds hmid.holds ho hq hqr
  rw [← hfirst]
  unfold Machine.takeTurn at hend ⊢
  generalize Machine.takeTarget r e = e1 at hmid hend ho
  by_cases h : (e1.st.rail r).state = .draining ∧ (e1.st.rail r).drainFinished = true ∧ e1.st.heldByDraining r = false
  · exact (becomes_takeDeferredOff h).rail_eq hmid.holds hend.holds (moves_takeDeferredOff r e1).onlyRails hq
      (by rw [State.isParent_of_onlyRails ho]; exact hqr)
  · rw [takeDeferredOff_of_not h]

/-- The turn of one rail changes of another the hold set alone. -/
theorem sameButHolds_takeTurn (e : Event) {r q : Rail} (hq : q ≠ r) : SameButHolds (e.st.rail q) ((takeTurn e r).st.rail q) := by
  have hfirst : SameButHolds (e.st.rail q) ((takeTarget r e).st.rail q) := by
    by_cases h : e.st.targetFor r = (e.st.rail r).target
    · rw [takeTarget_of_eq h]
      exact .refl _
    · exact (becomes_takeTarget h).other hq
  refine hfirst.trans ?_
  unfold takeTurn
  generalize takeTarget r e = e1
  by_cases h : (e1.st.rail r).state = .draining ∧ (e1.st.rail r).drainFinished = true ∧ e1.st.heldByDraining r = false
  · exact (becomes_takeDeferredOff h).other hq
  · rw [takeDeferredOff_of_not h]
    exact .refl _

theorem aimed_takeTurn_other {e : Event} (hs : Calm e.st) {r q : Rail} (h : Aimed e.st q) (hq : q ≠ r)
    (hqr : e.st.isParent q r = false) : Aimed (takeTurn e r).st q := by
  refine h.congr (rail_takeTurn hs hq hqr) ((moves_takeTurn e r).onlyRails.record q) fun c hc hst => ?_
  have hcr : c ≠ r := by
    rintro rfl
    rw [hs.holds q c, hqr] at hc
    cases hc
  rw [(sameButHolds_takeTurn e hcr).state, hst]

/-- A change of a rail leaves its own hold set as it was: no rail is its own parent. -/
theorem Becomes.holdSet_self {s t : State} {r : Rail} {y : RailRuntime} (hb : Becomes s t r y) (hs : HoldsExact s)
    (ht : HoldsExact t) (ho : OnlyRails s t) (hself : s.isParent r r = false) :
    (t.rail r).holdSet = (s.rail r).holdSet := vector_eq_of_get fun c => by
  rw [hs r c, ht r c, State.isParent_of_onlyRails ho]
  by_cases hc : c = r
  · subst hc
    rw [hself]
    rfl
  · rw [(hb.other hc).state]

/-- The target follows from the claims, the suspended flag and the hold set (R53). -/
theorem State.targetFor_congr {s t : State} {r : Rail} (hrecord : t.record r = s.record r)
    (hclaims : (t.rail r).claims = (s.rail r).claims) (hsuspended : (t.rail r).suspended = (s.rail r).suspended)
    (hholds : (t.rail r).holdSet = (s.rail r).holdSet) : t.targetFor r = s.targetFor r := by
  unfold State.targetFor RailRuntime.demandedTarget RailRuntime.effectiveDemand RailRuntime.isHeld RailRuntime.claimDemand
  rw [hrecord, hclaims, hsuspended, hholds]

theorem SameButHolds.suspended {x y : RailRuntime} (h : SameButHolds x y) : y.suspended = x.suspended := by
  unfold SameButHolds at h
  rw [h]

theorem SameButHolds.target {x y : RailRuntime} (h : SameButHolds x y) : y.target = x.target := by
  unfold SameButHolds at h
  rw [h]

theorem Becomes.targetFor_self {s t : State} {r : Rail} {y : RailRuntime} (hb : Becomes s t r y) (hs : HoldsExact s)
    (ht : HoldsExact t) (ho : OnlyRails s t) (hself : s.isParent r r = false) (hclaims : y.claims = (s.rail r).claims)
    (hsuspended : y.suspended = (s.rail r).suspended) : t.targetFor r = s.targetFor r :=
  State.targetFor_congr (ho.record r) (hb.self.claims.trans hclaims) (hb.self.suspended.trans hsuspended)
    (hb.holdSet_self hs ht ho hself)

theorem target_takeTarget {e : Event} (hs : Calm e.st) (r : Rail) :
    ((takeTarget r e).st.rail r).target = (takeTarget r e).st.targetFor r := by
  by_cases h : e.st.targetFor r = (e.st.rail r).target
  · rw [takeTarget_of_eq h]
    exact h.symm
  · have hb := becomes_takeTarget h
    have hinputs := inputs_acts (x := { e.st.rail r with target := e.st.targetFor r }) (rec := e.st.record r) r
    rw [hb.targetFor_self hs.holds (hs.takeTarget r).holds (moves_takeTarget r e).onlyRails (hs.table.acyclic.not_self r)
      hinputs.1 hinputs.2, hb.self.target]
    exact target_acts r

theorem aimed_takeTurn_self {e : Event} (hs : Calm e.st) (r : Rail) : Aimed (takeTurn e r).st r := by
  have htarget := target_takeTarget hs r
  have hmid := hs.takeTarget r
  have hend := hs.takeTurn r
  unfold takeTurn at hend ⊢
  generalize takeTarget r e = e1 at htarget hmid hend
  by_cases h : (e1.st.rail r).state = .draining ∧ (e1.st.rail r).drainFinished = true ∧ e1.st.heldByDraining r = false
  · have hb := becomes_takeDeferredOff h
    refine ⟨?_, fun hf => ?_⟩
    · rw [hb.targetFor_self hmid.holds hend.holds (moves_takeDeferredOff r e1).onlyRails (hmid.table.acyclic.not_self r) rfl rfl,
        ← htarget, hb.self.target]
      rfl
    · rw [hb.self.onlyAims.drainFinished] at hf
      cases hf
  · rw [takeDeferredOff_of_not h]
    refine ⟨htarget, fun hf => ?_⟩
    have hst := (hmid.shape r).finished hf
    exact Classical.byContradiction fun hd => h ⟨hst, hf, Bool.eq_false_iff.mpr hd⟩

/-- Taken in the order of the graph, one turn each brings every rail to its target. -/
theorem aimed_foldl_takeTurn {rs : List Rail} {e : Event} (hs : Calm e.st) (hn : rs.Nodup)
    (horder : rs.Pairwise fun a b => e.st.isParent a b = false)
    (hdone : ∀ q, q ∉ rs → Aimed e.st q ∧ ∀ a ∈ rs, e.st.isParent q a = false) :
    Calm (rs.foldl takeTurn e).st ∧ ∀ q, Aimed (rs.foldl takeTurn e).st q := by
  induction rs generalizing e with
  | nil => exact ⟨hs, fun q => (hdone q List.not_mem_nil).1⟩
  | cons a rs ih =>
    obtain ⟨ha, hn⟩ := List.nodup_cons.mp hn
    obtain ⟨hfirst, horder⟩ := List.pairwise_cons.mp horder
    have hparent : ∀ p c, (takeTurn e a).st.isParent p c = e.st.isParent p c :=
      State.isParent_of_onlyRails (moves_takeTurn e a).onlyRails
    refine ih (hs.takeTurn a) hn (horder.imp fun {x y} h => by rw [hparent]; exact h) fun q hq => ?_
    by_cases hqa : q = a
    · subst hqa
      exact ⟨aimed_takeTurn_self hs q, fun b hb => by rw [hparent]; exact hfirst b hb⟩
    · obtain ⟨haimed, hnot⟩ := hdone q fun h => (List.mem_cons.mp h).elim hqa hq
      exact ⟨aimed_takeTurn_other hs haimed hqa (hnot a List.mem_cons_self), fun b hb => by
        rw [hparent]
        exact hnot b (List.mem_cons_of_mem a hb)⟩

theorem settle_aimed {e : Event} (hs : Calm e.st) : Calm (settle e).st ∧ ∀ q, Aimed (settle e).st q := by
  obtain ⟨hfirst, hall⟩ := hs.table.acyclic.childFirst
  rw [settle_eq_foldl]
  exact aimed_foldl_takeTurn hs hfirst.once hfirst.order fun q hq => absurd (hall q) hq

end Sys2Proof.Machine
end

/-! ### What a settling makes of one rail (R54) -/

section
namespace Sys2Proof.Machine

/-- The record of a rail that takes the target `n`. -/
def RailRuntime.taking (r : Rail) (rec : RailRecord) (n : Nat) (x : RailRuntime) : RailRuntime :=
  RailRuntime.acts r rec { x with target := n }

/-- What a settling makes of the record `x` of rail `r`: it takes its target and acts on it, and ends a drain that is over. -/
inductive TurnOf (r : Rail) (rec : RailRecord) (x y : RailRuntime) : Prop where
  | acted : SameButHolds (x.taking r rec y.target) y → TurnOf r rec x y
  | drained : x.state = .draining → x.drainFinished = true → SameButHolds (({ x with target := y.target } : RailRuntime).toDrained r) y →
      TurnOf r rec x y

/-- A record that has acted on its target has nothing more to do at it. -/
theorem Acted.acts_eq {r : Rail} {rec : RailRecord} {x : RailRuntime} (h : Acted x)
    (hlevel : x.state.running = true ∨ x.state = .draining → 1 ≤ x.level) : x.acts r rec = x := by
  unfold RailRuntime.acts
  cases hs : x.state with
  | off => exact if_pos (h.off hs)
  | waiting => exact if_neg (h.waiting hs)
  | ramping => exact if_neg (h.ramping hs)
  | on =>
    have hle := h.on hs
    have hpos := hlevel (.inl (by rw [hs]; rfl))
    exact (if_neg (by omega)).trans (if_neg (by omega))
  | slewing => rfl
  | draining => rfl
  | fault => rfl

theorem SameButHolds.symm {x y : RailRuntime} (h : SameButHolds x y) : SameButHolds y x := by
  unfold SameButHolds at *
  rw [h]

theorem TurnOf.refl {r : Rail} {rec : RailRecord} {x : RailRuntime} (h : Acted x)
    (hlevel : x.state.running = true ∨ x.state = .draining → 1 ≤ x.level) : TurnOf r rec x x :=
  .acted (by
    unfold RailRuntime.taking
    rw [h.acts_eq hlevel]
    exact .refl x)

theorem TurnOf.after {r : Rail} {rec : RailRecord} {x y z : RailRuntime} (h : TurnOf r rec x y) (h' : SameButHolds y z) :
    TurnOf r rec x z := by
  cases h with
  | acted hy =>
    rw [← h'.target] at hy
    exact .acted (hy.trans h')
  | drained hs hf hy =>
    rw [← h'.target] at hy
    exact .drained hs hf (hy.trans h')

theorem TurnOf.ahead {r : Rail} {rec : RailRecord} {x y z : RailRuntime} (h' : SameButHolds x y) (h : TurnOf r rec y z) :
    TurnOf r rec x z := by
  unfold SameButHolds at h'
  cases h with
  | acted hz =>
    refine .acted (.trans ?_ hz)
    unfold RailRuntime.taking
    rw [h']
    exact (congrArg (SameButHolds _) (RailRuntime.acts_withHoldSet r rec { x with target := z.target } _)).mpr rfl
  | drained hs hf hz =>
    rw [h'] at hs hf hz
    exact .drained hs hf (by rw [SameButHolds] at hz ⊢; rw [hz]; rfl)

/-- Acting on a target begins a drain, but finds none that has finished. -/
theorem draining_of_acts {r : Rail} {rec : RailRecord} {x : RailRuntime} (h : (x.acts r rec).state = .draining)
    (hf : (x.acts r rec).drainFinished = true) : x.state = .draining := by
  unfold RailRuntime.acts at h hf
  cases hx : x.state with
  | draining => rfl
  | off => rw [hx] at h; dsimp only at h; split at h <;> simp [hx, RailRuntime.toWaiting, driveLines] at h
  | waiting => rw [hx] at h; dsimp only at h; split at h <;> simp [hx, RailRuntime.toOff, driveLines] at h
  | ramping =>
    rw [hx] at h hf
    dsimp only at h hf
    split at h
    · next ht => rw [if_pos ht] at hf; cases hf
    · simp [hx] at h
  | on =>
    rw [hx] at h hf
    dsimp only at h hf
    split at h
    · next ht => rw [if_pos ht] at hf; cases hf
    · split at h <;> simp [hx, RailRuntime.toSlewing, driveLines] at h
  | slewing => rw [hx] at h; simp [hx] at h
  | fault => rw [hx] at h; simp [hx] at h

theorem RailRuntime.acts_of_draining {r : Rail} {rec : RailRecord} {x : RailRuntime} (h : x.state = .draining) :
    x.acts r rec = x := by
  unfold RailRuntime.acts
  rw [h]

theorem RailRuntime.acts_of_slewing {r : Rail} {rec : RailRecord} {x : RailRuntime} (h : x.state = .slewing) :
    x.acts r rec = x := by
  unfold RailRuntime.acts
  rw [h]

theorem RailRuntime.acts_of_fault {r : Rail} {rec : RailRecord} {x : RailRuntime} (h : x.state = .fault) :
    x.acts r rec = x := by
  unfold RailRuntime.acts
  rw [h]

theorem RailRuntime.acts_of_on {r : Rail} {rec : RailRecord} {x : RailRuntime} (h : x.state = .on) :
    x.acts r rec =
      if x.target = 0 then x.toDraining r rec .normal
      else if x.target < x.level then x.toSlewing r rec.slewTime.toNat else x := by
  unfold RailRuntime.acts
  rw [h]

theorem turnOf_takeTurn {e : Event} (hs : Calm e.st) (r : Rail) :
    TurnOf r (e.st.record r) (e.st.rail r) ((takeTurn e r).st.rail r) := by
  have hfirst : TurnOf r (e.st.record r) (e.st.rail r) ((takeTarget r e).st.rail r) := by
    by_cases h : e.st.targetFor r = (e.st.rail r).target
    · rw [takeTarget_of_eq h]
      exact .refl (hs.acted r) (hs.sized r).powered
    · have hb := (becomes_takeTarget h).self
      have ht : ((takeTarget r e).st.rail r).target = e.st.targetFor r := hb.target.trans (target_acts r)
      exact .acted (by rw [ht]; exact hb)
  unfold takeTurn
  have hmid := hs.takeTarget r
  generalize takeTarget r e = e1 at hfirst hmid
  by_cases h : (e1.st.rail r).state = .draining ∧ (e1.st.rail r).drainFinished = true ∧ e1.st.heldByDraining r = false
  · have hb := (becomes_takeDeferredOff h).self
    obtain ⟨hst, hf, -⟩ := h
    cases hfirst with
    | acted hy =>
      have hx : (e.st.rail r).state = .draining :=
        draining_of_acts (x := { e.st.rail r with target := (e1.st.rail r).target }) (r := r) (rec := e.st.record r)
          (hy.state.symm.trans hst) (hy.onlyAims.drainFinished.symm.trans hf)
      have hacts := RailRuntime.acts_of_draining (r := r) (rec := e.st.record r)
        (x := { e.st.rail r with target := (e1.st.rail r).target }) hx
      unfold RailRuntime.taking at hy
      rw [hacts] at hy
      have hfinished := hy.onlyAims.drainFinished
      have ht : ((Machine.takeDeferredOff r e1).st.rail r).target = (e1.st.rail r).target := hb.target
      refine .drained hx (hfinished.symm.trans hf) (.trans ?_ hb)
      rw [ht, hy]
      rfl
    | drained _ _ hy =>
      have hfinished := hy.onlyAims.drainFinished
      rw [hf] at hfinished
      cases hfinished
  · rw [takeDeferredOff_of_not h]
    exact hfirst

/-- Taking turns, each rail at most once, makes of a rail what its own turn makes of it. -/
theorem turnOf_foldl {rs : List Rail} {e : Event} (hs : Calm e.st) (hn : rs.Nodup) (r : Rail) :
    TurnOf r (e.st.record r) (e.st.rail r) ((rs.foldl takeTurn e).st.rail r) := by
  have hlate : ∀ (rs : List Rail) (e : Event), r ∉ rs → SameButHolds (e.st.rail r) ((rs.foldl takeTurn e).st.rail r) := by
    intro rs
    induction rs with
    | nil => exact fun e _ => .refl _
    | cons a rs ih =>
      intro e hr
      obtain ⟨ha, hr⟩ := not_or.mp (mt List.mem_cons.mpr hr)
      exact (sameButHolds_takeTurn e ha).trans (ih _ hr)
  induction rs generalizing e with
  | nil => exact .refl (hs.acted r) (hs.sized r).powered
  | cons a rs ih =>
    obtain ⟨ha, hn⟩ := List.nodup_cons.mp hn
    rw [List.foldl_cons]
    by_cases hra : r = a
    · subst hra
      exact (turnOf_takeTurn hs r).after (hlate rs _ ha)
    · have h := ih (hs.takeTurn a) hn
      rw [(moves_takeTurn e a).onlyRails.record] at h
      exact .ahead (sameButHolds_takeTurn e hra) h

theorem turnOf_settle {e : Event} (hs : Calm e.st) (r : Rail) :
    TurnOf r (e.st.record r) (e.st.rail r) ((settle e).st.rail r) := by
  rw [settle_eq_foldl]
  exact turnOf_foldl hs hs.table.acyclic.childFirst.1.once r

end Sys2Proof.Machine
end

/-! ### The grants of an event (R83 to R85, R92, R103) -/

section
namespace Sys2Proof.Machine

/-- What has become of a rail that stood in ON with the record `b`: it is in ON still, it slews down within its budget, it has
been granted a RAISE by its claims, or its fate at the event is settled. -/
inductive SinceOn (b x : RailRuntime) : Prop where
  | on : x.state = .on → x.level = b.level → x.held = b.held → SinceOn b x
  | slewDown : x.state = .slewing → x.held = b.held → SinceOn b x
  | raised : x.state = .slewing → x.effectiveDemand ≠ 0 → SinceOn b x
  | settled : x.Frozen → SinceOn b x

/-- Every rail that stood in ON before the event is where the event may have brought it. -/
def Since (before s : State) : Prop := ∀ r, (before.rail r).state = .on → SinceOn (before.rail r) (s.rail r)

theorem Since.refl (s : State) : Since s s := fun _ h => .on h rfl rfl

theorem SameButHolds.level {x y : RailRuntime} (h : SameButHolds x y) : y.level = x.level := h.onlyAims.level

theorem SameButHolds.held {x y : RailRuntime} (h : SameButHolds x y) : y.held = x.held := h.onlyAims.held

theorem SameButHolds.effectiveDemand {x y : RailRuntime} (h : SameButHolds x y) : y.effectiveDemand = x.effectiveDemand := by
  unfold RailRuntime.effectiveDemand RailRuntime.claimDemand
  rw [h.suspended, h.claims]

theorem SameButHolds.frozen {x y : RailRuntime} (h : SameButHolds x y) (hx : x.Frozen) : y.Frozen := by
  unfold RailRuntime.Frozen
  rw [h.state, h.onlyAims.drainFinished]
  exact hx

theorem SinceOn.same {b x y : RailRuntime} (h : SinceOn b x) (hxy : SameButHolds x y) : SinceOn b y := by
  cases h with
  | on hs hl hh => exact .on (hxy.state.trans hs) (hxy.level.trans hl) (hxy.held.trans hh)
  | slewDown hs hh => exact .slewDown (hxy.state.trans hs) (hxy.held.trans hh)
  | raised hs hd => exact .raised (hxy.state.trans hs) (by rw [hxy.effectiveDemand]; exact hd)
  | settled hf => exact .settled (hxy.frozen hf)

/-- A rail that takes a target goes on from where it was. -/
theorem SinceOn.turn {b x y : RailRuntime} {r : Rail} {rec : RailRecord} (h : SinceOn b x) (hxy : TurnOf r rec x y) :
    SinceOn b y := by
  cases hxy with
  | acted hy =>
    refine SinceOn.same ?_ hy
    unfold RailRuntime.taking
    cases h with
    | on hs hl hh =>
      rw [RailRuntime.acts_of_on (x := { x with target := y.target }) hs]
      split
      · exact .settled (.inr ⟨rfl, rfl⟩)
      · split
        · exact .slewDown rfl hh
        · exact .on hs hl hh
    | slewDown hs hh =>
      rw [RailRuntime.acts_of_slewing (x := { x with target := y.target }) hs]
      exact .slewDown hs hh
    | raised hs hd =>
      rw [RailRuntime.acts_of_slewing (x := { x with target := y.target }) hs]
      exact .raised hs hd
    | settled hf =>
      rcases hf with hf | ⟨hf, hd⟩
      · rw [RailRuntime.acts_of_fault (x := { x with target := y.target }) hf]
        exact .settled (.inl hf)
      · rw [RailRuntime.acts_of_draining (x := { x with target := y.target }) hf]
        exact .settled (.inr ⟨hf, hd⟩)
  | drained hs hf _ =>
    exfalso
    cases h with
    | on h => exact nomatch h.symm.trans hs
    | slewDown h => exact nomatch h.symm.trans hs
    | raised h => exact nomatch h.symm.trans hs
    | settled h =>
      rcases h with h | ⟨-, h⟩
      · exact nomatch h.symm.trans hs
      · rw [hf] at h
        cases h

theorem Since.settle {before : State} {e : Event} (hs : Calm e.st) (h : Since before e.st) : Since before (settle e).st :=
  fun r hr => (h r hr).turn (turnOf_settle hs r)

/-- The part between the rounds of the grant rule. -/
structure Firm (before s : State) : Prop extends Calm s where
  aimed : ∀ r, Aimed s r
  since : Since before s

theorem Firm.of_same {before s t : State} (hs : Firm before s) (hrails : t.rails = s.rails) (hrecords : t.records = s.records) :
    Firm before t := by
  have hrail (r : Rail) : t.rail r = s.rail r := by
    unfold State.rail
    rw [hrails]
  have hrecord : ∀ r, t.record r = s.record r := State.record_of_records_eq hrecords
  have hparents (r : Rail) : t.parentsOf r = s.parentsOf r := by
    unfold State.parentsOf
    rw [hrecord]
  refine ⟨⟨⟨hs.table.of_records hrecords, fun r => ?_, fun r => ?_, fun r => ?_, ?_⟩, fun r hr p hp => ?_⟩, fun r => ?_, fun r hr => ?_⟩
  · rw [hrail]
    exact hs.shape r
  · rw [hrail, hrecord]
    exact hs.sized r
  · rw [hrail]
    exact hs.acted r
  · exact hs.holds.congr hrecords (fun q => by rw [hrail]) fun q => by rw [hrail]
  · rw [hrail] at hr ⊢
    rw [hparents] at hp
    exact hs.up r hr p hp
  · exact (hs.aimed r).congr (hrail r) (hrecord r) fun c _ hc => by rw [hrail, hc]
  · rw [hrail]
    exact hs.since r hr

/-- A change of one rail that holds its parents as before and is not in its drain leaves every other rail as it was. -/
theorem Becomes.rail_eq_of_holding {s t : State} {r q : Rail} {y : RailRuntime} (hb : Becomes s t r y) (hs : HoldsExact s)
    (ht : HoldsExact t) (ho : OnlyRails s t) (hholding : y.state.holding = (s.rail r).state.holding) (hq : q ≠ r) :
    t.rail q = s.rail q := by
  have hsame := hb.other hq
  have hhold : (t.rail q).holdSet = (s.rail q).holdSet := vector_eq_of_get fun c => by
    rw [hs q c, ht q c, State.isParent_of_onlyRails ho]
    by_cases hc : c = r
    · subst hc
      rw [hb.self.state, hholding]
    · rw [(hb.other hc).state]
  rw [hsame, hhold]

/-- A grant in which the rail goes on holding its parents keeps the part firm. -/
theorem Firm.of_moves {before s t : State} {r : Rail} {y : RailRuntime} (hs : Firm before s) (hm : Moves s t)
    (hb : Becomes s t r y) (hsized : RailSized (s.record r) y) (hacted : Acted y)
    (hrun : y.state.running = true → ∀ p ∈ s.parentsOf r, (s.rail p).state.up = true)
    (hup : y.state.up = false → ∀ c, s.isParent r c = true → (s.rail c).state.running = false)
    (hholding : y.state.holding = (s.rail r).state.holding) (hdrain : (s.rail r).state ≠ .draining)
    (htarget : y.target = (s.rail r).target) (hclaims : y.claims = (s.rail r).claims)
    (hsuspended : y.suspended = (s.rail r).suspended) (hfinished : y.drainFinished = false)
    (hsince : (before.rail r).state = .on → SinceOn (before.rail r) y) : Firm before t := by
  have hcalm := hs.toCalm.of_moves hm hb hsized hacted hrun hup
  have ho := hm.onlyRails
  refine ⟨hcalm, fun q => ?_, fun q hq => ?_⟩
  · by_cases hqr : q = r
    · subst hqr
      refine ⟨?_, fun hf => ?_⟩
      · rw [hb.targetFor_self hs.holds hcalm.holds ho (hs.table.acyclic.not_self q) hclaims hsuspended, hb.self.target, htarget]
        exact (hs.aimed q).target
      · rw [hb.self.onlyAims.drainFinished, hfinished] at hf
        cases hf
    · refine (hs.aimed q).congr (hb.rail_eq_of_holding hs.holds hcalm.holds ho hholding hqr) (ho.record q) fun c _ hc => ?_
      have hcr : c ≠ r := fun h => hdrain (h ▸ hc)
      rw [(hb.other hcr).state, hc]
  · by_cases hqr : q = r
    · subst hqr
      exact (hsince hq).same hb.self
    · exact (hs.since q hq).same (hb.other hqr)

/-- A rail that waits has no part in what has become of the rails that stood in ON. -/
theorem Since.not_waiting {before s : State} (h : Since before s) {r : Rail} (hr : (s.rail r).state = .waiting) :
    (before.rail r).state ≠ .on := fun hon => by
  cases h r hon with
  | on hs => exact nomatch hs.symm.trans hr
  | slewDown hs => exact nomatch hs.symm.trans hr
  | raised hs => exact nomatch hs.symm.trans hr
  | settled hf =>
    rcases hf with hf | ⟨hf, -⟩
    · exact nomatch hf.symm.trans hr
    · exact nomatch hf.symm.trans hr

theorem Firm.start {before s : State} (hs : Firm before s) {r : Rail} {n : Nat} (hreq : s.requestOf r = some (.start, n))
    (hfits : s.fits n = true) : Firm before ((s.takeBudget r n).enterRamping r) := by
  have hw := State.waiting_of_start hreq
  obtain ⟨hready, rfl⟩ := (s.requestOf_eq_start_iff r n).mp hreq
  have hparents := ((s.ready_iff r).mp hready).2.1
  have ht := (hs.acted r).waiting hw
  have hfinished := (hs.shape r).drainFinished_eq_false (by rw [hw]; nofun)
  refine hs.of_moves (Move.start s r _ hreq hfits).one (becomes_start s r _) ((hs.sized r).toRamping _ hw ht)
    ⟨nofun, nofun, fun _ => ht, nofun⟩ (fun _ p hp => (RailState.up_iff _).mpr (hparents p hp))
    (fun _ c hc => hs.up.child (by rw [hw]; rfl) hc) (by rw [hw]; rfl) (by rw [hw]; nofun) rfl rfl rfl hfinished
    fun hon => absurd hon (hs.since.not_waiting hw)

/-- A rail whose target is above 1 has it from its claims (R53). -/
theorem Aimed.effectiveDemand {s : State} {r : Rail} (h : Aimed s r) (ht : 1 < (s.rail r).target) :
    (s.rail r).effectiveDemand ≠ 0 := by
  rw [h.target] at ht
  unfold State.targetFor RailRuntime.demandedTarget at ht
  intro hzero
  rw [if_pos hzero] at ht
  split at ht
  · split at ht <;> omega
  · omega

theorem Firm.raise {before s : State} (hs : Firm before s) {r : Rail} {n : Nat} (hreq : s.requestOf r = some (.raise, n))
    (hfits : s.fits n = true) : Firm before ((s.takeBudget r n).enterSlewing r) := by
  obtain ⟨hon, hl, rfl⟩ := (s.requestOf_eq_raise_iff r n).mp hreq
  have hrun : (s.rail r).state.running = true := by rw [hon]; rfl
  have hpos := (hs.sized r).powered (.inl hrun)
  have hd := (hs.sized r).defined (by rw [hon]; nofun)
  have hcost := hs.table.costs r hd _ _ (Nat.le_of_lt hl) (hs.sized r).target
  have hfinished := (hs.shape r).drainFinished_eq_false (by rw [hon]; nofun)
  refine hs.of_moves (Move.raise s r _ hreq hfits).one (becomes_raise s r _) ((hs.sized r).toSlewingUp _ hon hl hcost)
    (.of_state (.inl rfl)) (fun _ p hp => hs.up r hrun p hp) nofun (by rw [hon]; rfl) (by rw [hon]; nofun) rfl rfl rfl hfinished
    fun _ => .raised rfl ((hs.aimed r).effectiveDemand (by omega))

theorem cascade_of_none (k : FaultKind) (n : Nat) {gen : List Rail} {e : Event}
    (h : ∀ c ∈ gen, (e.st.rail c).state.running = false) : cascade k n gen e = e := by
  cases n with
  | zero => rfl
  | succ n =>
    have hnil : gen.filter (fun r => (e.st.rail r).state.running) = [] :=
      List.filter_eq_nil_iff.mpr fun c hc => by rw [h c hc]; exact Bool.false_ne_true
    unfold cascade
    rw [hnil]

/-- A START that finds BACKFEED takes its rail into FAULT; no child of the rail runs, so none is forced down. -/
theorem Firm.backfeed {before s : State} (hs : Firm before s) {r : Rail} {n : Nat} (hreq : s.requestOf r = some (.start, n))
    (hfits : s.fits n = true) (hmon : s.monitored r = true) (hpg : (s.rail r).pg = .high) :
    Calm ((s.takeBudget r n).enterFault r .backfeed) ∧ Since before ((s.takeBudget r n).enterFault r .backfeed) := by
  have hw := State.waiting_of_start hreq
  have hb := becomes_backfeed s r n .backfeed
  refine ⟨hs.toCalm.of_moves (Move.backfeed s r n hreq hfits hmon hpg).one hb ((hs.sized r).toFault .backfeed (by rw [hw]; nofun))
    (.of_state (.inr (.inr rfl))) nofun fun _ c hc => hs.up.child (by rw [hw]; rfl) hc, fun q hq => ?_⟩
  by_cases hqr : q = r
  · subst hqr
    exact absurd hq (hs.since.not_waiting hw)
  · exact (hs.since q hq).same (hb.other hqr)

/-- A rail that takes the whole fall of its target drains from the level it stood at (R37, R54). -/
theorem Firm.takeWholeFall {before s : State} (hs : Firm before s)
    (hbefore : ∀ r, RailSized (s.record r) (before.rail r)) (r : Rail) : Firm before (takeWholeFall before s r) := by
  unfold Machine.takeWholeFall
  dsimp only
  split
  · next h =>
    obtain ⟨hon, hslew, ht⟩ := h
    have hzero : s.targetFor r = 0 := (hs.aimed r).target.symm.trans ht
    have hd := (hs.sized r).defined (by rw [hslew]; nofun)
    have hdemand : (s.rail r).effectiveDemand = 0 := by
      unfold State.targetFor RailRuntime.demandedTarget at hzero
      rw [if_pos hd] at hzero
      exact Classical.byContradiction fun hne => hne (by rwa [if_neg hne] at hzero)
    have hheld : (s.rail r).held = (s.record r).costOf (before.rail r).level := by
      rw [← (hbefore r).held_on hon]
      cases hs.since r hon with
      | on h => exact nomatch h.symm.trans hslew
      | slewDown _ h => exact h
      | raised _ h => exact absurd hdemand h
      | settled h =>
        rcases h with h | ⟨h, -⟩
        · exact nomatch h.symm.trans hslew
        · exact nomatch h.symm.trans hslew
    have hrun : (before.rail r).state.running = true := by rw [hon]; rfl
    refine hs.of_moves (Move.wholeFall s r _ hslew ht).one (becomes_wholeFall s r _)
      ((hs.sized r).wholeFall hslew hheld ((hbefore r).powered (.inl hrun)) (hbefore r).level) (.of_state (.inr (.inl rfl))) nofun
      (fun _ c hc => ?_) (by rw [hslew]; rfl) (by rw [hslew]; nofun) rfl rfl rfl rfl fun _ => .settled (.inr ⟨rfl, rfl⟩)
    have hnot := hs.holds.child_of_targetFor hzero hd hc
    exact Bool.eq_false_iff.mpr fun h => by
      rw [RailState.holding_of_running h] at hnot
      cases hnot
  · exact hs

theorem Firm.takeWholeFalls {before : State} {e : Event} (hs : Firm before e.st)
    (hbefore : ∀ r, RailSized (e.st.record r) (before.rail r)) : Firm before (takeWholeFalls before e).st := by
  have hfold : ∀ (rs : List Rail) (s : State), Firm before s → (∀ r, RailSized (s.record r) (before.rail r)) →
      Firm before (rs.foldl (Machine.takeWholeFall before) s) := by
    intro rs
    induction rs with
    | nil => exact fun _ h _ => h
    | cons r rs ih =>
      intro s h hb
      refine ih _ (h.takeWholeFall hb r) fun q => ?_
      rw [(moves_takeWholeFall before s r).onlyRails.record]
      exact hb q
  exact hfold allRails e.st hs hbefore

theorem handGrant_backfeed {before : State} {r : Rail} {n : Nat} {e : Event} (hmon : e.st.monitored r = true)
    (hpg : (e.st.rail r).pg = .high) (hnone : ∀ c, e.st.isParent r c = true →
      (((e.st.takeBudget r n).enterFault r .backfeed).rail c).state.running = false) :
    handGrant before r .start n e =
      takeWholeFalls before (settleAfter ⟨(e.st.takeBudget r n).enterFault r .backfeed, e.log ++ [.enteredFault r .backfeed]⟩) := by
  have hfault : ((e.mapState fun s => s.takeBudget r n).st.monitored r = true
      ∧ ((e.mapState fun s => s.takeBudget r n).st.rail r).pg = .high) := ⟨hmon, (e.st.pg_takeBudget r r n).trans hpg⟩
  unfold handGrant
  dsimp only
  rw [if_pos hfault]
  unfold faultRail
  dsimp only
  rw [cascade_of_none]
  · rfl
  · intro c hc
    rw [State.mem_childrenOf_iff] at hc
    refine hnone c ?_
    rw [← State.isParent_of_onlyRails ((onlyRails_takeBudget e.st r n).trans (onlyRails_enterFault _ r .backfeed))]
    exact hc

theorem handGrant_start {before : State} {r : Rail} {n : Nat} {e : Event}
    (h : ¬(e.st.monitored r = true ∧ (e.st.rail r).pg = .high)) :
    handGrant before r .start n e = ⟨(e.st.takeBudget r n).enterRamping r, e.log⟩ := by
  have hno : ¬((e.mapState fun s => s.takeBudget r n).st.monitored r = true
      ∧ ((e.mapState fun s => s.takeBudget r n).st.rail r).pg = .high) := fun h' =>
    h ⟨h'.1, (e.st.pg_takeBudget r r n).symm.trans h'.2⟩
  unfold handGrant
  dsimp only
  rw [if_neg hno]
  rfl

theorem handGrant_raise {before : State} {r : Rail} {n : Nat} {e : Event} :
    handGrant before r .raise n e = ⟨(e.st.takeBudget r n).enterSlewing r, e.log⟩ := rfl

/-- No child of a rail that is granted a START runs. -/
theorem Calm.child_of_start {s : State} (hs : Calm s) {r : Rail} {n : Nat} (hreq : s.requestOf r = some (.start, n)) {c : Rail}
    (hc : s.isParent r c = true) : (((s.takeBudget r n).enterFault r .backfeed).rail c).state.running = false := by
  have hcr : c ≠ r := fun h => hs.table.acyclic r (.of_isParent (h ▸ hc))
  rw [((becomes_backfeed s r n .backfeed).other hcr).state]
  exact hs.up.child (by rw [State.waiting_of_start hreq]; rfl) hc

theorem Firm.handGrant {before : State} {e : Event} (hs : Firm before e.st)
    (hbefore : ∀ r, RailSized (e.st.record r) (before.rail r)) {r : Rail} {k : GrantKind} {n : Nat}
    (hreq : e.st.requestOf r = some (k, n)) (hfits : e.st.fits n = true) : Firm before (handGrant before r k n e).st := by
  cases k with
  | start =>
    by_cases h : e.st.monitored r = true ∧ (e.st.rail r).pg = .high
    · obtain ⟨hmon, hpg⟩ := h
      obtain ⟨hcalm, hsince⟩ := hs.backfeed hreq hfits hmon hpg
      have honly := (Move.backfeed e.st r n hreq hfits hmon hpg).onlyRails
      rw [handGrant_backfeed hmon hpg fun c hc => hs.toCalm.child_of_start hreq hc]
      generalize (e.st.takeBudget r n).enterFault r .backfeed = a at hcalm hsince honly
      obtain ⟨hcalm', haimed⟩ := settle_aimed (e := ⟨a, []⟩) hcalm
      have hfirm : Firm before (settleAfter ⟨a, e.log ++ [.enteredFault r .backfeed]⟩).st :=
        ⟨hcalm', haimed, hsince.settle (e := ⟨a, []⟩) hcalm⟩
      refine hfirm.takeWholeFalls fun q => ?_
      have hrecord := (moves_settleAfter (⟨a, e.log ++ [Announcement.enteredFault r .backfeed]⟩ : Event)).onlyRails.record q
      rw [hrecord, honly.record]
      exact hbefore q
    · rw [handGrant_start h]
      exact hs.start hreq hfits
  | raise =>
    rw [handGrant_raise]
    exact hs.raise hreq hfits

/-- From `s` to `t` the queue alone has changed. -/
def QueueOnly (s t : State) : Prop := t = { s with budgetQueue := t.budgetQueue }

theorem QueueOnly.of_onlyRails {s t : State} (h : OnlyRails s t) (hrails : t.rails = s.rails) (hallocated : t.allocated = s.allocated) :
    QueueOnly s t := by
  unfold OnlyRails at h
  unfold QueueOnly
  rw [← hrails, ← hallocated]
  exact h

/-- What changes of the queue and grants keep holds at the end of the grant rule. -/
theorem repeatRounds_keeps {before : State} {P : Event → Prop}
    (hqueue : ∀ (s t : State) (log : List Announcement), QueueOnly s t → P ⟨s, log⟩ → P ⟨t, log⟩)
    (hgrant : ∀ (e : Event) (r : Rail) (k : GrantKind) (n : Nat), e.st.requestOf r = some (k, n) → e.st.fits n = true → P e →
      P (handGrant before r k n e)) (n : Nat) {e : Event} (h : P e) : P (repeatRounds (grantRound before) n e) := by
  have hone : ∀ e, P e → P (grantRound before e).1 := by
    intro e h
    rcases grantRound_cases before e with hend | ⟨s, r, k, n, ho, hrails, hallocated, hreq, hfits, hround⟩
    · have hplaced : QueueOnly e.st e.st.reconcile.placeRequests := by
        obtain ⟨hrails, hallocated⟩ := e.st.reconcile.placeRequests_rails
        exact .of_onlyRails ((onlyRails_reconcile e.st).trans (onlyRails_placeRequests e.st.reconcile)) hrails hallocated
      have h' := hqueue e.st _ e.log hplaced h
      unfold grantRound at hend ⊢
      dsimp only at hend ⊢
      split at hend
      · cases hend
      · generalize e.st.reconcile.placeRequests = s2 at hend h' ⊢
        split at hend
        · exact h'
        · split at hend
          · cases hend
          · next hfits =>
            rw [if_neg hfits]
            exact h'
    · rw [hround]
      exact hgrant ⟨s, e.log⟩ r k n hreq hfits (hqueue e.st s e.log (.of_onlyRails ho hrails hallocated) h)
  induction n generalizing e with
  | zero => exact h
  | succ n ih =>
    have h1 := hone e h
    unfold repeatRounds
    cases hround : grantRound before e with
    | mk e1 b =>
      rw [hround] at h1
      cases b with
      | true => exact ih h1
      | false => exact h1

theorem Firm.granted {before : State} {e : Event} (hs : Firm before e.st)
    (hbefore : ∀ r, RailSized (e.st.record r) (before.rail r)) : Firm before (e.granted before).st := by
  refine (repeatRounds_keeps (before := before)
    (P := fun e => Firm before e.st ∧ ∀ r, RailSized (e.st.record r) (before.rail r))
    (fun s t log hq ⟨hf, hb⟩ => ?_) (fun e r k n hreq hfits ⟨hf, hb⟩ => ?_) Config.grantRounds
    (e := { e with log := [] }) ⟨hs, hbefore⟩).1
  · unfold QueueOnly at hq
    have hrecord (r : Rail) : t.record r = s.record r := by rw [hq]; rfl
    refine ⟨hf.of_same (by rw [hq]) (by rw [hq]), fun r => ?_⟩
    change RailSized (t.record r) _
    rw [hrecord]
    exact hb r
  · refine ⟨hf.handGrant hb hreq hfits, fun r => ?_⟩
    rw [(moves_handGrant before hreq hfits).onlyRails.record]
    exact hb r

end Sys2Proof.Machine
end

/-! ### The part at the onset of an event, and at its end -/

section
namespace Sys2Proof.Machine

theorem Sound.rail_sized {s : State} (hs : Sound s) (r : Rail) : RailSized (s.record r) (s.rail r) := by
  obtain ⟨hlevel, htarget, horigin, hclaims, habsent⟩ := hs.levels r
  refine ⟨hs.held r, hlevel, htarget, horigin, hclaims, fun hd => ?_, hs.settled.level r⟩
  obtain ⟨hoff, hnone⟩ := habsent hd
  exact ⟨hoff, hs.settled.off r hoff, hnone⟩

/-- A sound part is calm where it is committed, and every rail has its target. -/
theorem Sound.calm {s : State} (hs : Sound s) (hc : s.lifecycle = .committed) : Calm s :=
  ⟨⟨hs.table.good hc, hs.shape, hs.rail_sized,
    fun r => ⟨hs.settled.off r, hs.settled.waiting r, hs.settled.ramping r, hs.settled.on r⟩, hs.holds⟩, hs.parents⟩

theorem Sound.aimed {s : State} (hs : Sound s) (r : Rail) : Aimed s r :=
  ⟨hs.settled.target r, hs.settled.finished r⟩

/-- A change of one rail's record, outside the moves of an event. -/
theorem Even.becomes {s t : State} {r : Rail} {y : RailRuntime} (hs : Even s) (ho : OnlyRails s t) (hb : Becomes s t r y)
    (hholds : HoldsExact t) (hshape : RecordShape y) (hsized : RailSized (s.record r) y) (hacted : Acted y) : Even t where
  table := hs.table.of_records ho.records
  shape := recordRule_shape.becomes hb hs.shape hshape
  sized q := by
    rw [ho.record]
    by_cases hq : q = r
    · subst hq
      exact hb.self.sized hsized
    · exact (hb.other hq).sized (hs.sized q)
  acted q := by
    by_cases hq : q = r
    · subst hq
      exact hb.self.acted hacted
    · exact (hb.other hq).acted (hs.acted q)
  holds := hholds

theorem Calm.becomes {s t : State} {r : Rail} {y : RailRuntime} (hs : Calm s) (ho : OnlyRails s t) (hb : Becomes s t r y)
    (hholds : HoldsExact t) (hshape : RecordShape y) (hsized : RailSized (s.record r) y) (hacted : Acted y)
    (hrun : y.state.running = true → ∀ p ∈ s.parentsOf r, (s.rail p).state.up = true)
    (hup : y.state.up = false → ∀ c, s.isParent r c = true → (s.rail c).state.running = false) : Calm t :=
  ⟨hs.toEven.becomes ho hb hholds hshape hsized hacted, hs.up.becomes hs.table.acyclic ho hb hrun hup⟩

/-- From `s` to `t` no rail's record has changed but for its claims, its suspended flag and its filtered PG. -/
structure InputsOnly (s t : State) : Prop where
  records : t.records = s.records
  rail : ∀ q, t.rail q =
    { s.rail q with claims := (t.rail q).claims, suspended := (t.rail q).suspended, pg := (t.rail q).pg }

theorem InputsOnly.state {s t : State} (h : InputsOnly s t) (q : Rail) : (t.rail q).state = (s.rail q).state := by
  rw [h.rail]

theorem InputsOnly.holdSet {s t : State} (h : InputsOnly s t) (q : Rail) : (t.rail q).holdSet = (s.rail q).holdSet := by
  rw [h.rail]

theorem InputsOnly.record {s t : State} (h : InputsOnly s t) (q : Rail) : t.record q = s.record q :=
  State.record_of_records_eq h.records q

theorem Calm.inputs {s t : State} (hs : Calm s) (h : InputsOnly s t)
    (hclaims : ∀ q l, (t.rail q).claims.get l ≤ (s.record q).levelCount.toNat)
    (habsent : ∀ q, (s.record q).defined = false → ∀ l, (t.rail q).claims.get l = 0) : Calm t := by
  have hparents (q : Rail) : t.parentsOf q = s.parentsOf q := by
    unfold State.parentsOf
    rw [h.record]
  refine ⟨⟨hs.table.of_records h.records, fun q => ?_, fun q => ?_, fun q => ?_, ?_⟩, fun q hq p hp => ?_⟩
  · rw [h.rail]
    exact (hs.shape q).inputs (s.rail q).holdSet (s.rail q).target _ _ _
  · rw [h.rail, h.record]
    exact (hs.sized q).inputs (hclaims q) (habsent q)
  · rw [h.rail]
    have ha := hs.acted q
    exact ⟨ha.off, ha.waiting, ha.ramping, ha.on⟩
  · exact hs.holds.congr h.records h.state h.holdSet
  · rw [h.state] at hq ⊢
    rw [hparents] at hp
    exact hs.up q hq p hp

/-- Where claims and flag of a rail have not changed, it has its target still. -/
theorem Aimed.inputs {s t : State} {q : Rail} (hs : Aimed s q) (h : InputsOnly s t)
    (hclaims : (t.rail q).claims = (s.rail q).claims) (hsuspended : (t.rail q).suspended = (s.rail q).suspended) : Aimed t q where
  target := by
    rw [State.targetFor_congr (h.record q) hclaims hsuspended (h.holdSet q), ← hs.target, h.rail]
  finished hf := by
    have hf' : (s.rail q).drainFinished = true := by
      rw [h.rail] at hf
      exact hf
    obtain ⟨c, hc, hst⟩ := (s.heldByDraining_iff q).mp (hs.finished hf')
    exact (t.heldByDraining_iff q).mpr ⟨c, by rw [h.holdSet]; exact hc, by rw [h.state]; exact hst⟩

theorem Light.inputsOnly {s t : State} (h : Light s t) : InputsOnly s t where
  records := h.sameArbiter.records
  rail q := by
    have hrail := h.rail q
    generalize t.rail q = y at hrail
    rw [hrail]

theorem Light.claims {s t : State} (h : Light s t) (q : Rail) : (t.rail q).claims = (s.rail q).claims := by
  rw [h.rail]

theorem Light.suspended {s t : State} (h : Light s t) (q : Rail) : (t.rail q).suspended = (s.rail q).suspended := by
  rw [h.rail]

theorem Calm.light {s t : State} (hs : Calm s) (h : Light s t) : Calm t :=
  hs.inputs h.inputsOnly (fun q l => by rw [h.claims]; exact (hs.sized q).claims l) fun q hd l => by
    rw [h.claims]
    exact ((hs.sized q).absent hd).2.2 l

theorem Aimed.light {s t : State} {q : Rail} (hs : Aimed s q) (h : Light s t) : Aimed t q :=
  hs.inputs h.inputsOnly (h.claims q) (h.suspended q)

/-! #### What an event begins with -/

theorem calm_setClaim {s : State} (hs : Calm s) (l : Link) (r : Rail) {v : Nat} (hv : v ≤ (s.record r).levelCount.toNat)
    (hd : (s.record r).defined = false → v = 0) : Calm (s.setClaim l r v) := by
  have hrail (q : Rail) : (s.setClaim l r v).rail q =
      { s.rail q with claims := ((s.setClaim l r v).rail q).claims } := by
    rw [State.rail_setClaim]
    split
    · next h => rw [h]
    · rfl
  have hget (q : Rail) (m : Link) : ((s.setClaim l r v).rail q).claims.get m =
      if m = l ∧ q = r then v else (s.rail q).claims.get m := State.claim_setClaim ..
  refine hs.inputs ⟨rfl, fun q => ?_⟩ (fun q m => ?_) fun q habsent m => ?_
  · have h := hrail q
    generalize (s.setClaim l r v).rail q = y at h
    rw [h]
  · rw [hget]
    split
    · next h => rw [h.2]; exact hv
    · exact (hs.sized q).claims m
  · rw [hget]
    split
    · next h => exact hd (h.2 ▸ habsent)
    · exact ((hs.sized q).absent habsent).2.2 m

theorem calm_without {s : State} (hs : Calm s) (l : Link) (st : SessionState) : Calm (s.without l st) := by
  have hrail (q : Rail) : (s.without l st).rail q = { s.rail q with claims := (s.rail q).claims.set l.val 0 l.isLt } := get_map ..
  have hget (q : Rail) (m : Link) : ((s.without l st).rail q).claims.get m = if m = l then 0 else (s.rail q).claims.get m := by
    rw [hrail]
    exact get_set ..
  refine hs.inputs ⟨rfl, fun q => by rw [hrail]⟩ (fun q m => ?_) fun q habsent m => ?_
  · rw [hget]
    split
    · exact Nat.zero_le _
    · exact (hs.sized q).claims m
  · rw [hget]
    split
    · rfl
    · exact ((hs.sized q).absent habsent).2.2 m

theorem becomes_onExamined {s : State} (r : Rail) :
    Becomes s (onExamined r s).st r (((s.rail r).toOn r (s.record r)).acts r (s.record r)) := by
  have hon := becomes_enterOn s r
  have hact := becomes_examineTarget r ⟨s.enterOn r, [.enteredOn r ((s.enterOn r).rail r).level]⟩ (s.state_enterOn r)
  rw [(onlyRails_enterOn s r).record] at hact
  exact hon.trans (g := RailRuntime.acts r (s.record r)) hact fun x hs => x.acts_withHoldSet r _ hs

theorem onlyRails_onExamined (s : State) (r : Rail) : OnlyRails s (onExamined r s).st :=
  (onlyRails_enterOn s r).trans (onlyRails_examineTarget r ⟨s.enterOn r, _⟩)

theorem moves_onExamined (s : State) (r : Rail) : Moves (s.enterOn r) (onExamined r s).st :=
  moves_examineTarget (r := r) (e := ⟨s.enterOn r, [.enteredOn r ((s.enterOn r).rail r).level]⟩) (s.state_enterOn r)

theorem calm_onExamined {s : State} (hs : Calm s) {r : Rail} (haimed : Aimed s r)
    (hr : (s.rail r).state = .ramping ∨ (s.rail r).state = .slewing) : Calm (onExamined r s).st := by
  have hrun : (s.rail r).state.running = true := by rcases hr with h | h <;> rw [h] <;> rfl
  have hsized := (hs.sized r).toOn (r := r) hrun
  have hshape : RecordsShaped (onExamined r s).st :=
    (moves_onExamined s r).keep (I := RecordsShaped) (fun _ _ h => recordRule_shape.move h)
      (recordRule_shape.act (Act.on s r hr) hs.shape)
  have hb := becomes_onExamined (s := s) r
  have hholds : HoldsExact (onExamined r s).st := (moves_onExamined s r).holds (hs.holds.enterOn r)
  have heven : Even (onExamined r s).st :=
    hs.toEven.becomes (onlyRails_onExamined s r) hb hholds (by
      have h := hshape r
      have hself := hb.self.symm
      rw [hself]
      exact h.inputs _ _ _ _ _) (hsized.acts r (hs.table.costs r)) (acted_acts r)
  refine ⟨heven, hs.up.becomes hs.table.acyclic (onlyRails_onExamined s r) hb (fun _ => hs.up r hrun) fun hup c hc => ?_⟩
  have ht : (s.rail r).target = 0 := Classical.byContradiction fun hne => by
    rw [up_acts (x := (s.rail r).toOn r (s.record r)) r rfl hne] at hup
    cases hup
  have hd := (hs.sized r).defined fun hoff => by rw [hoff] at hrun; cases hrun
  have hnot := hs.holds.child_of_targetFor (haimed.target.symm.trans ht) hd hc
  exact Bool.eq_false_iff.mpr fun h => by
    rw [RailState.holding_of_running h] at hnot
    cases hnot

theorem calm_expired {s : State} (hs : Calm s) {r : Rail} (hr : (s.rail r).state = .draining) :
    Calm (s.modRail r fun x => { x with timer := .stopped, drainFinished := true }) :=
  hs.becomes (onlyRails_modRail ..) (becomes_modRail s r _) (hs.holds.modRail r (fun _ => rfl) fun _ => rfl)
    (recordRule_shape.finish r _ hr (hs.shape r)) ((hs.sized r).finished hr) (.of_state (.inr (.inl hr)))
    (fun h => by rw [hr] at h; cases h) fun _ c hc => hs.up.child (by rw [hr]; rfl) hc

theorem acted_toCleared (r : Rail) (x : RailRuntime) : Acted (x.toCleared r) := by
  unfold RailRuntime.toCleared driveLines
  by_cases ht : x.target = 0
  · simp only [if_pos ht]
    exact ⟨fun _ => ht, nofun, nofun, nofun⟩
  · simp only [if_neg ht]
    exact ⟨nofun, fun _ => ht, nofun, nofun⟩

theorem running_toCleared (r : Rail) (x : RailRuntime) : (x.toCleared r).state.running = false := by
  change (if x.target = 0 then RailState.off else RailState.waiting).running = false
  split <;> rfl

theorem calm_cleared {s : State} (hs : Calm s) {r : Rail} (hl : (s.rail r).faultLatch = true) :
    Calm (s.moveRail r fun y =>
      { y with faultLatch := false, level := 0, state := if y.target = 0 then .off else .waiting }) := by
  have hst := (hs.shape r).latch.mp hl
  exact hs.becomes (onlyRails_moveRail ..) (becomes_moveRail s r _) (hs.holds.moveRail r rfl)
    (recordRule_shape.clear r _ hl (hs.shape r)) ((hs.sized r).toCleared hst) (acted_toCleared r _)
    (fun h => absurd ((running_toCleared r _).symm.trans h) Bool.false_ne_true) fun _ c hc => hs.up.child (by rw [hst]; rfl) hc

theorem inputsOnly_supplied (s : State) (m : SupplyMonitor) : InputsOnly s (s.supplied m) :=
  ⟨rfl, fun q => by rw [State.rail_supplied]⟩

theorem calm_supplied {s : State} (hs : Calm s) (m : SupplyMonitor) : Calm (s.supplied m) :=
  hs.inputs (inputsOnly_supplied s m) (fun q l => by rw [State.rail_supplied]; exact (hs.sized q).claims l) fun q hd l => by
    rw [State.rail_supplied]
    exact ((hs.sized q).absent hd).2.2 l

/-- A part in which no rail runs has its parents up. -/
theorem ParentsUp.of_none {s : State} (h : ∀ r, (s.rail r).state.running = false) : ParentsUp s := fun r hr => by
  rw [h r] at hr
  cases hr

theorem calm_drainRunning {s : State} (hs : Calm s) (c : DrainCause) : Calm (s.drainRunning c) := by
  have hm := moves_drainRunning s c
  have hrail := rail_drainRunning s c
  have hdrained (q : Rail) : RailSized (s.record q) ((s.rail q).drainedIfRunning q (s.record q) c)
      ∧ Acted ((s.rail q).drainedIfRunning q (s.record q) c)
      ∧ ((s.rail q).drainedIfRunning q (s.record q) c).state.running = false := by
    unfold RailRuntime.drainedIfRunning
    split
    · next h => exact ⟨(hs.sized q).toDraining c h, .of_state (.inr (.inl rfl)), rfl⟩
    · next h => exact ⟨hs.sized q, hs.acted q, Bool.eq_false_iff.mpr h⟩
  refine ⟨⟨hs.table.of_records hm.onlyRails.records,
    hm.keep (I := RecordsShaped) (fun _ _ h => recordRule_shape.move h) hs.shape, fun q => ?_, fun q => ?_, hm.holds hs.holds⟩,
    .of_none fun q => ?_⟩
  · rw [hm.onlyRails.record]
    exact (hrail q).sized (hdrained q).1
  · exact (hrail q).acted (hdrained q).2.1
  · rw [(hrail q).state]
    exact (hdrained q).2.2

theorem calm_supplyFound {s : State} (hs : Calm s) (st : SupplyState) : Calm (supplyFound st s) := by
  have h := calm_supplied hs (s.supply.entering s.part st)
  unfold supplyFound
  dsimp only
  split
  · exact calm_drainRunning h .collapse
  · exact h

theorem RailSized.cleared {rec : RailRecord} {x : RailRuntime} (hx : RailSized rec x) : RailSized rec x.cleared where
  held := hx.held
  level := hx.level
  target := hx.target
  origin := hx.origin
  claims l := by
    unfold RailRuntime.cleared
    rw [get_replicate]
    exact Nat.zero_le _
  absent h := ⟨(hx.absent h).1, (hx.absent h).2.1, fun _ => get_replicate ..⟩
  powered := hx.powered

/-- What a warm reset leaves of a record: a drain, or OFF with the target it had there (R50). -/
theorem restarted_settled {rec : RailRecord} {x : RailRuntime} (hx : RailSized rec x) (ha : Acted x) (r : Rail) :
    RailSized rec (x.restarted r rec) ∧ Acted (x.restarted r rec) ∧ (x.restarted r rec).state.running = false := by
  have hcleared := hx.cleared
  unfold RailRuntime.restarted RailRuntime.restartedIfIdle RailRuntime.drainedIfRunning
  split
  · next hrun =>
    rw [if_neg (by rintro (h | h) <;> cases h)]
    exact ⟨hcleared.toDraining .restart hrun, .of_state (.inr (.inl rfl)), rfl⟩
  · next hrun =>
    split
    · exact ⟨RailSized.lines (hcleared.unpowered (.inl rfl) rfl rfl (.inr rfl) (.inr rfl) (fun _ => .inl rfl) (.inr rfl)),
        ⟨fun _ => rfl, nofun, nofun, nofun⟩, rfl⟩
    · exact ⟨hcleared, ⟨ha.off, ha.waiting, ha.ramping, ha.on⟩, Bool.eq_false_iff.mpr hrun⟩

theorem calm_restartRails {s : State} (hs : Calm s) : Calm s.restartRails := by
  have hrail := rail_restartRails s
  have ho := onlyRails_restartRails s
  have hshape := recordRule_shape.act (Act.restart s) hs.shape
  have hholds := hs.holds.restartRails
  generalize s.restartRails = t at hrail ho hshape hholds
  have hsettled (q : Rail) := restarted_settled (hs.sized q) (hs.acted q) q
  refine ⟨⟨hs.table.of_records ho.records, hshape, fun q => ?_, fun q => (hrail q).acted (hsettled q).2.1, hholds⟩,
    .of_none fun q => ?_⟩
  · rw [ho.record]
    exact (hrail q).sized (hsettled q).1
  · rw [(hrail q).state]
    exact (hsettled q).2.2

theorem inputsOnly_restartSupply (v : Nat) (s : State) : InputsOnly s (restartSupply v s) where
  records := by
    have h := restartSupply_rest v s
    generalize restartSupply v s = t at h
    rw [h]
  rail q := by
    have h := rail_restartSupply v s q
    generalize (restartSupply v s).rail q = y at h
    rw [h]

theorem claims_restartSupply (v : Nat) (s : State) (q : Rail) :
    ((restartSupply v s).rail q).claims = (s.rail q).claims := by rw [rail_restartSupply]

theorem calm_restartSupply {s : State} (hs : Calm s) (v : Nat) : Calm (restartSupply v s) :=
  hs.inputs (inputsOnly_restartSupply v s) (fun q l => by rw [claims_restartSupply]; exact (hs.sized q).claims l) fun q hd l => by
    rw [claims_restartSupply]
    exact ((hs.sized q).absent hd).2.2 l

/-- The state that an event begins from is calm. -/
theorem Onset.calm {s m : State} {reserve : Option Link} {lead log : List Announcement} (h : Onset s reserve lead m log)
    (hs : Calm s) (haimed : ∀ r, Aimed s r) : Calm m := by
  cases h with
  | claim reserve l r v hv hd => exact calm_setClaim hs l r hv hd
  | without l st => exact calm_without hs l st
  | on r hr => exact calm_onExamined hs (haimed r) hr
  | expired r hr => exact calm_expired hs hr
  | deferred r hst hf hd =>
    exact hs.of_moves (Move.drained s r hst hf hd).one (becomes_finishDrain s r) ((hs.sized r).toDrained hst) (acted_toDrained r _)
      (fun h => absurd ((running_toDrained r _).symm.trans h) Bool.false_ne_true)
      fun _ c hc => hs.up.child (by rw [hst]; rfl) hc
  | cleared l r hl => exact calm_cleared hs hl
  | supply st _ _ _ => exact calm_supplyFound hs st
  | warm v => exact calm_restartSupply (calm_restartRails hs) v

/-! #### An entry into FAULT -/

/-- The cascade brings the parents of every running rail up again (R45, R101). -/
theorem calm_faultCascaded {s : State} (hs : Calm s) {r : Rail} (k : FaultKind)
    (hr : (s.rail r).state.running = true ∨ (s.rail r).state = .draining) : Calm (faultCascaded r k s).st := by
  have hoff : (s.rail r).state ≠ .off := fun h => by rcases hr with hr | hr <;> rw [h] at hr <;> cases hr
  have hb := becomes_enterFault s r k
  have heven : Even (s.enterFault r k) :=
    hs.toEven.becomes (onlyRails_enterFault s r k) hb (hs.holds.enterFault r k) (recordRule_shape.fault r _ k (hs.shape r))
      ((hs.sized r).toFault k hoff) (.of_state (.inr (.inr rfl)))
  have hcascaded := cascaded_faultCascaded r k s
  have hm : Moves (s.enterFault r k) (faultCascaded r k s).st := moves_cascade k _ _ (faultEntered r k s)
  have hparent : ∀ p c, (s.enterFault r k).isParent p c = s.isParent p c :=
    State.isParent_of_onlyRails (onlyRails_enterFault s r k)
  have hst : (faultEntered r k s).st = s.enterFault r k := rfl
  generalize faultEntered r k s = e at hcascaded hst
  rw [← hst] at hb heven hm hparent hcascaded
  generalize faultCascaded r k s = e' at hcascaded hm
  have hrail (q : Rail) : RailSized (e.st.record q) (e'.st.rail q) ∧ Acted (e'.st.rail q) := by
    cases hnow : (e'.st.rail q).state.running with
    | true =>
      have hsame := hcascaded.kept q (hnow.trans (hcascaded.only q hnow).symm)
      exact ⟨hsame.sized (heven.sized q), hsame.acted (heven.acted q)⟩
    | false =>
      cases hthen : (e.st.rail q).state.running with
      | true =>
        have hforced := (hcascaded.forced q hthen hnow).1
        exact ⟨hforced.sized ((heven.sized q).toDraining .parentFault hthen), hforced.acted (.of_state (.inr (.inl rfl)))⟩
      | false =>
        have hsame := hcascaded.kept q (hnow.trans hthen.symm)
        exact ⟨hsame.sized (heven.sized q), hsame.acted (heven.acted q)⟩
  refine ⟨⟨heven.table.of_records hm.onlyRails.records,
    hm.keep (I := RecordsShaped) (fun _ _ h => recordRule_shape.move h) heven.shape,
    fun q => ?_, fun q => (hrail q).2, hm.holds heven.holds⟩, fun c hc p hp => ?_⟩
  · rw [hm.onlyRails.record]
    exact (hrail q).1
  · rw [hm.onlyRails.parentsOf] at hp
    have hpc : e.st.isParent p c = true := (e.st.mem_parentsOf_iff p c).mp hp
    have hrunning := hcascaded.only c hc
    have hcr : c ≠ r := fun h => by
      rw [h, hb.self.state] at hrunning
      cases hrunning
    have hpr : p ≠ r := fun h => by
      have hdown := hcascaded.reach c ((e.st.mem_childrenOf_iff r c).mpr (h ▸ hpc))
      rw [hdown] at hc
      cases hc
    have hup : (s.rail p).state.up = true :=
      hs.up c (by rw [← (hb.other hcr).state]; exact hrunning) p ((s.mem_parentsOf_iff p c).mpr (by rw [← hparent]; exact hpc))
    have hup' : (e.st.rail p).state.up = true := by rwa [(hb.other hpr).state]
    have hprun := RailState.running_of_up hup'
    cases hnow : (e'.st.rail p).state.running with
    | true => rw [(hcascaded.kept p (hnow.trans hprun.symm)).state, hup']
    | false =>
      have hdown := hcascaded.onward p c hprun hnow hpc
      rw [hdown] at hc
      cases hc

/-! #### The end of an event -/

theorem firm_granted {m : State} (hs : Calm m) (log : List Announcement) :
    Firm m ((railEvent ⟨m, log⟩).granted m).st := by
  obtain ⟨hcalm, haimed⟩ := settle_aimed (e := ⟨m, log⟩) hs
  have hfirm : Firm m (railEvent ⟨m, log⟩).st := ⟨hcalm, haimed, (Since.refl m).settle (e := ⟨m, log⟩) hs⟩
  refine hfirm.granted fun r => ?_
  rw [(moves_railEvent ⟨m, log⟩).onlyRails.record]
  exact hs.sized r

theorem firm_faultSettled {s : State} (hs : Calm s) {r : Rail} (k : FaultKind)
    (hr : (s.rail r).state.running = true ∨ (s.rail r).state = .draining) :
    Firm (faultSettled r k s).st (faultSettled r k s).st := by
  have hcalm := calm_faultCascaded hs k hr
  unfold faultSettled
  generalize faultCascaded r k s = e at hcalm
  obtain ⟨hcalm', haimed⟩ := settle_aimed (e := { e with log := [] }) hcalm
  exact ⟨hcalm', haimed, .refl _⟩

theorem firm_faultGranted {s : State} (hs : Calm s) {r : Rail} (k : FaultKind)
    (hr : (s.rail r).state.running = true ∨ (s.rail r).state = .draining) :
    Firm (faultSettled r k s).st (faultGranted r k s) := by
  have h := firm_faultSettled hs k hr
  unfold faultGranted
  generalize faultSettled r k s = e at h
  exact Firm.granted (e := { e with log := [] }) h h.sized

/-- What every rail keeps to between events. -/
structure Steady (s : State) : Prop extends Calm s where
  aimed : ∀ r, Aimed s r

theorem Firm.steady {before s : State} (h : Firm before s) : Steady s := ⟨h.toCalm, h.aimed⟩

theorem Steady.of_same {s t : State} (hs : Steady s) (hrails : t.rails = s.rails) (hrecords : t.records = s.records) :
    Steady t :=
  (Firm.of_same ⟨hs.toCalm, hs.aimed, .refl s⟩ hrails hrecords).steady

theorem Steady.beside {s t : State} (hs : Steady s) (h : Beside s t) : Steady t := hs.of_same (by rw [h]) (by rw [h])

theorem steady_railTurn {m : State} (hs : Calm m) (reserve : Option Link) (lead log : List Announcement) :
    Steady (railTurn reserve lead ⟨m, log⟩) := by
  have h := firm_granted hs log
  unfold railTurn
  rw [conclude_beside]
  dsimp only
  generalize ((railEvent ⟨m, log⟩).granted m).st = w at h
  exact h.steady.of_same rfl rfl

theorem steady_fail {s : State} (hs : Calm s) {r : Rail} (k : FaultKind)
    (hr : (s.rail r).state.running = true ∨ (s.rail r).state = .draining) : Steady (fail r k s) := by
  have h := firm_faultGranted hs k hr
  have hrest := conclude_beside none (faultSettled r k s).log (faultSettled r k s).st { faultSettled r k s with log := [] }
  rw [fail_eq, hrest]
  unfold faultGranted at h
  generalize faultSettled r k s = e at h
  generalize (Event.granted e.st { e with log := [] }).st = w at h
  exact h.steady.of_same rfl rfl

end Sys2Proof.Machine
end

/-! ### The supply monitor after every command (R74, R119, R123, R126) -/

section
namespace Sys2Proof.Machine

/-- No move of an event writes an input of a rail (R18). -/
theorem RailStep.inputs {r : Rail} {rec : RailRecord} {asks : Option (GrantKind × Nat)} {x y : RailRuntime}
    (h : RailStep r rec asks x y) : y.claims = x.claims ∧ y.suspended = x.suspended ∧ y.pg = x.pg := by
  cases h with
  | aims h => rw [h]; exact ⟨rfl, rfl, rfl⟩
  | wait _ _ h => rw [h]; exact ⟨rfl, rfl, rfl⟩
  | unwait _ _ h => rw [h]; exact ⟨rfl, rfl, rfl⟩
  | drain c _ h => rw [h]; exact ⟨rfl, rfl, rfl⟩
  | slewDown _ _ _ h => rw [h]; exact ⟨rfl, rfl, rfl⟩
  | drained _ _ h => rw [h]; exact ⟨rfl, rfl, rfl⟩
  | start n _ _ _ h => rw [h]; exact ⟨rfl, rfl, rfl⟩
  | backfeed n _ _ _ _ h => rw [h]; exact ⟨rfl, rfl, rfl⟩
  | raise n _ _ _ _ h => rw [h]; exact ⟨rfl, rfl, rfl⟩
  | wholeFall level _ _ h => rw [h]; exact ⟨rfl, rfl, rfl⟩

theorem Moves.inputs {s t : State} (h : Moves s t) (r : Rail) : (t.rail r).claims = (s.rail r).claims
    ∧ (t.rail r).suspended = (s.rail r).suspended ∧ (t.rail r).pg = (s.rail r).pg :=
  h.keepRail (P := fun x => x.claims = (s.rail r).claims ∧ x.suspended = (s.rail r).suspended ∧ x.pg = (s.rail r).pg)
    (fun _ x y hstep ⟨hc, hs, hp⟩ => by
      obtain ⟨hc', hs', hp'⟩ := hstep.inputs
      exact ⟨hc'.trans hc, hs'.trans hs, hp'.trans hp⟩) rfl ⟨rfl, rfl, rfl⟩

/-- A change that leaves the blocks the monitor's rules speak of, in which no rail has begun to run in COLLAPSE. -/
theorem SupplySound.same {s t : State} (hs : SupplySound s) (hrecords : t.records = s.records) (hpart : t.part = s.part)
    (hlife : t.lifecycle = s.lifecycle) (hlimit : t.limit = s.limit)
    (hactive : t.supply.active = s.supply.active) (hstate : t.supply.state = s.supply.state)
    (hholdoff : (t.supply.holdoff = .stopped) ↔ (s.supply.holdoff = .stopped))
    (hsuspended : ∀ r, (t.rail r).suspended = (s.rail r).suspended)
    (hrunning : s.supply.state = .collapse → (∀ r, (s.rail r).state.running = false) → ∀ r, (t.rail r).state.running = false) :
    SupplySound t where
  active := by rw [hactive, hlife]; exact hs.active
  limit h := by
    rw [hlimit, hpart, hstate]
    exact hs.limit (hlife ▸ h)
  holdoff := by rw [ne_eq, hholdoff, hstate]; exact hs.holdoff
  flagged r h := by
    rw [State.record_of_records_eq hrecords]
    exact hs.flagged r (hsuspended r ▸ h)
  set h r hd hc := by
    rw [State.record_of_records_eq hrecords] at hd hc
    rw [hsuspended]
    exact hs.set (hstate ▸ h) r hd hc
  clear h r := by
    rw [hsuspended]
    exact hs.clear (hstate ▸ h) r
  collapse h := hrunning (hstate ▸ h) (hs.collapse (hstate ▸ h))

theorem SupplySound.moves {s t : State} (hs : SupplySound s) (hm : Moves s t) : SupplySound t := by
  have ho := hm.onlyRails
  refine hs.same ho.records ho.part ho.lifecycle ho.limit (by rw [ho.supply]) (by rw [ho.supply]) (by rw [ho.supply])
    (fun r => (hm.inputs r).2.1) fun hc hnone => ?_
  exact (hm.keep (fun _ _ hmove h => h.move hmove) (⟨hc, hnone⟩ : Collapsed s)).running

theorem SupplySound.beside {s t : State} (hs : SupplySound s) (h : Beside s t) : SupplySound t :=
  hs.same (by rw [h]) (by rw [h]) (by rw [h]) (by rw [h]) (by rw [h]) (by rw [h]) (by rw [h])
    (fun r => by rw [h.rail]) fun _ hnone r => by rw [h.rail]; exact hnone r

theorem SupplySound.light {s t : State} (hs : SupplySound s) (h : Light s t) : SupplySound t := by
  have hrunning : ∀ r, (t.rail r).state.running = (s.rail r).state.running := fun r => by rw [h.rail]
  have hsuspended := h.suspended
  cases h with
  | beside he =>
    exact hs.same (by rw [he]) (by rw [he]) (by rw [he]) (by rw [he]) (by rw [he]) (by rw [he]) (by rw [he]) hsuspended
      fun _ hnone r => (hrunning r).trans (hnone r)
  | pg q level hb =>
    exact hs.same (by rw [hb]; rfl) (by rw [hb]; rfl) (by rw [hb]; rfl) (by rw [hb]; rfl) (by rw [hb]; rfl) (by rw [hb]; rfl)
      (by rw [hb]; exact Iff.rfl) hsuspended fun _ hnone r => (hrunning r).trans (hnone r)
  | sides w u hb =>
    exact hs.same (by rw [hb]) (by rw [hb]) (by rw [hb]) (by rw [hb]) (by rw [hb]) (by rw [hb]) (by rw [hb]) hsuspended
      fun _ hnone r => (hrunning r).trans (hnone r)

/-- A change of rails ahead of an event that starts none. -/
theorem SupplySound.onlyRails {s t : State} (hs : SupplySound s) (ho : OnlyRails s t)
    (hsuspended : ∀ r, (t.rail r).suspended = (s.rail r).suspended)
    (hrunning : ∀ r, (s.rail r).state.running = false → (t.rail r).state.running = false) : SupplySound t :=
  hs.same ho.records ho.part ho.lifecycle ho.limit (by rw [ho.supply]) (by rw [ho.supply]) (by rw [ho.supply]) hsuspended
    fun _ hnone r => hrunning r (hnone r)

/-- The same where one rail has changed. -/
theorem SupplySound.becomes {s t : State} {r : Rail} {y : RailRuntime} (hs : SupplySound s) (ho : OnlyRails s t)
    (hb : Becomes s t r y) (hsuspended : y.suspended = (s.rail r).suspended)
    (hrunning : (s.rail r).state.running = false → y.state.running = false) : SupplySound t := by
  refine hs.onlyRails ho (fun q => ?_) fun q hq => ?_
  · by_cases hqr : q = r
    · subst hqr
      exact hb.self.suspended.trans hsuspended
    · exact (hb.other hqr).suspended
  · by_cases hqr : q = r
    · subst hqr
      rw [hb.self.state]
      exact hrunning hq
    · rw [(hb.other hqr).state, hq]

/-- The flags after a change of the supply state are those of the state entered (R119). -/
theorem supplySound_supplied {s : State} {st : SupplyState} (hs : SupplySound s)
    (hst : s.supply.state ≠ st) (hr : st = .recovering → s.supply.state ≠ .normal) {t : State}
    (ho : OnlyRails (s.supplied (s.supply.entering s.part st)) t)
    (hsuspended : ∀ r, (t.rail r).suspended = s.flagAfter s.supply.state st r)
    (hrunning : st = .collapse → ∀ r, (t.rail r).state.running = false) : SupplySound t := by
  have hstate : t.supply.state = st := by rw [ho.supply]; rfl
  have hholdoff : t.supply.holdoff = holdoffIn s.part st := by rw [ho.supply]; rfl
  have hrecord : ∀ r, t.record r = s.record r := State.record_of_records_eq (by rw [ho.records]; rfl)
  have hactive : t.supply.active = s.supply.active := by rw [ho.supply]; rfl
  have hlife : t.lifecycle = s.lifecycle := by rw [ho.lifecycle]; rfl
  refine ⟨by rw [hactive, hlife]; exact hs.active, fun _ => by rw [ho.limit, ho.part, ho.supply]; rfl, ?_, fun r h => ?_, fun h r hd hc => ?_,
    fun h r => ?_, fun h => hrunning (hstate ▸ h)⟩
  · rw [hholdoff, hstate]
    cases st <;> simp [holdoffIn]
  · rw [hsuspended] at h
    rw [hrecord]
    unfold State.flagAfter at h
    split at h
    · next hshed => exact hshed
    · exact hs.flagged r h
  · rw [hrecord] at hd hc
    rw [hstate] at h
    rw [hsuspended]
    unfold State.flagAfter
    rw [if_pos ⟨hd, hc⟩, if_neg (by rintro rfl; rcases h with h | h <;> cases h)]
    split
    · rfl
    · next hnot =>
      refine hs.set ?_ r hd hc
      rcases h with rfl | rfl
      · cases hold : s.supply.state with
        | normal => exact absurd (.inl ⟨rfl, .inl hold⟩) hnot
        | low => exact absurd hold hst
        | collapse => exact absurd (.inl ⟨rfl, .inr hold⟩) hnot
        | recovering => exact .inr rfl
      · cases hold : s.supply.state with
        | normal => exact absurd hold (hr rfl)
        | low => exact .inl rfl
        | collapse => exact absurd (.inr ⟨rfl, hold⟩) hnot
        | recovering => exact absurd hold hst
  · rw [hstate] at h
    rw [hsuspended]
    unfold State.flagAfter
    split
    · rfl
    · next hshed => exact Bool.eq_false_iff.mpr fun hflag => hshed (hs.flagged r hflag)

theorem supplySound_supplyFound {s : State} {st : SupplyState} (hs : SupplySound s)
    (hst : s.supply.state ≠ st) (hr : st = .recovering → s.supply.state ≠ .normal) : SupplySound (supplyFound st s) := by
  have hrail (r : Rail) : ((s.supplied (s.supply.entering s.part st)).rail r).suspended = s.flagAfter s.supply.state st r := by
    rw [State.rail_supplied]
    rfl
  unfold supplyFound
  dsimp only
  generalize hw : s.supplied (s.supply.entering s.part st) = w at hrail
  split
  · have hm := moves_drainRunning w .collapse
    refine supplySound_supplied hs hst hr (by rw [hw]; exact hm.onlyRails) (fun r => (hm.inputs r).2.1.trans (hrail r)) fun _ r => ?_
    rw [(rail_drainRunning w .collapse r).state]
    unfold RailRuntime.drainedIfRunning
    split
    · rfl
    · next h => exact Bool.eq_false_iff.mpr h
  · next hcollapse => exact supplySound_supplied hs hst hr (by rw [hw]; exact .refl _) hrail fun h => absurd h hcollapse

/-- An evaluation of SENSE never finds RECOVERING (R126). -/
theorem PartRecord.evaluated_ne_recovering (p : PartRecord) (v : Nat) : p.evaluated v ≠ .recovering := by
  unfold PartRecord.evaluated
  split
  · nofun
  · split <;> nofun

/-- A committed part whose monitor has just been evaluated, with no rail running. -/
theorem supplySound_evaluated {t : State} {v : Nat} (hlife : t.lifecycle = .committed) (hsupply : t.supply = t.part.supplyAt v)
    (hlimit : t.limit = t.part.limitIn (t.part.evaluated v))
    (hflag : ∀ r, (t.rail r).suspended = true ↔
      t.part.evaluated v = .low ∧ (t.record r).defined = true ∧ (t.record r).shedClass = .shed)
    (hrunning : ∀ r, (t.rail r).state.running = false) : SupplySound t := by
  have hstate : t.supply.state = t.part.evaluated v := by rw [hsupply]; rfl
  have hne := t.part.evaluated_ne_recovering v
  refine ⟨by rw [hsupply, hlife]; exact ⟨fun _ => rfl, fun _ => rfl⟩, fun _ => by rw [hlimit, hstate], ?_,
    fun r h => ((hflag r).mp h).2, fun h r hd hc => ?_, fun h r => ?_, fun _ => hrunning⟩
  · rw [hstate, hsupply]
    exact ⟨fun h => absurd rfl h, fun h => absurd h hne⟩
  · rw [hstate] at h
    exact (hflag r).mpr ⟨h.resolve_right hne, hd, hc⟩
  · rw [hstate] at h
    exact Bool.eq_false_iff.mpr fun hf => nomatch h.symm.trans ((hflag r).mp hf).1

theorem suspended_restartRails (s : State) (r : Rail) : (s.restartRails.rail r).suspended = false := by
  rw [(rail_restartRails s r).suspended]
  unfold RailRuntime.restarted RailRuntime.restartedIfIdle RailRuntime.drainedIfRunning
  split <;> split <;> rfl

theorem supplySound_warm {s : State} (hs : Calm s) (hc : s.lifecycle = .committed) (v : Nat) :
    SupplySound (restartSupply v s.restartRails) := by
  have hrunning : ∀ r, (s.restartRails.rail r).state.running = false := fun r => by
    rw [(rail_restartRails s r).state]
    exact (restarted_settled (hs.sized r) (hs.acted r) r).2.2
  have hsuspended := suspended_restartRails s
  have ho := onlyRails_restartRails s
  generalize s.restartRails = b at hrunning hsuspended ho
  have hlife : b.lifecycle = .committed := ho.lifecycle.trans hc
  have heq : restartSupply v b = evaluateSupply v b := if_pos hlife
  rw [heq]
  have hrail := rail_evaluateSupply v b
  have hrest := evaluateSupply_eq v b
  generalize evaluateSupply v b = t at hrail hrest
  have hpart : t.part = b.part := by rw [hrest]
  have hrecord : ∀ r, t.record r = b.record r := State.record_of_records_eq (by rw [hrest])
  refine supplySound_evaluated (v := v) (by rw [hrest]; exact hlife) (by rw [hpart, hrest]) (by rw [hpart, hrest]) (fun r => ?_)
    fun r => ?_
  · rw [hrail, hpart, hrecord]
    unfold State.flagEvaluated
    dsimp only
    rw [hsuspended]
    split
    · next h => exact ⟨fun _ => h, fun _ => rfl⟩
    · next h => exact ⟨nofun, fun h' => absurd h' h⟩
  · rw [hrail]
    exact hrunning r

/-- The monitor as it stands where an event begins. -/
theorem Onset.supplySound {s m : State} {reserve : Option Link} {lead log : List Announcement} (h : Onset s reserve lead m log)
    (hs : SupplySound s) (hcalm : Calm s) (hc : s.lifecycle = .committed) : SupplySound m := by
  cases h with
  | claim reserve l r v _ _ =>
    have hrail (q : Rail) : ((s.setClaim l r v).rail q).suspended = (s.rail q).suspended
        ∧ ((s.setClaim l r v).rail q).state = (s.rail q).state := by
      rw [State.rail_setClaim]
      split
      · next h => rw [h]; exact ⟨rfl, rfl⟩
      · exact ⟨rfl, rfl⟩
    exact hs.same rfl rfl rfl rfl rfl rfl Iff.rfl (fun q => (hrail q).1) fun _ hnone q => by rw [(hrail q).2]; exact hnone q
  | without l st =>
    have hrail (q : Rail) : (s.without l st).rail q = { s.rail q with claims := (s.rail q).claims.set l.val 0 l.isLt } :=
      get_map ..
    exact hs.same rfl rfl rfl rfl rfl rfl Iff.rfl (fun q => by rw [hrail]) fun _ hnone q => by rw [hrail]; exact hnone q
  | on r hr =>
    have hrun : (s.rail r).state.running = true := by rcases hr with h | h <;> rw [h] <;> rfl
    refine hs.becomes (onlyRails_onExamined s r) (becomes_onExamined r) (inputs_acts r).2 fun h => ?_
    rw [hrun] at h
    cases h
  | expired r hr => exact hs.becomes (onlyRails_modRail ..) (becomes_modRail s r _) rfl id
  | deferred r _ _ _ =>
    exact hs.becomes (onlyRails_finishDrain s r) (becomes_finishDrain s r) rfl fun _ => running_toDrained r _
  | cleared l r _ => exact hs.becomes (onlyRails_moveRail ..) (becomes_moveRail s r _) rfl fun _ => running_toCleared r _
  | supply st _ hst hr => exact supplySound_supplyFound hs hst hr
  | warm v => exact supplySound_warm hcalm hc v

theorem supplySound_railTurn {m : State} (hs : SupplySound m) (reserve : Option Link) (lead log : List Announcement) :
    SupplySound (railTurn reserve lead ⟨m, log⟩) := by
  obtain ⟨u, hm, hb⟩ := moves_railTurn reserve lead log m
  exact (hs.moves hm).beside hb

theorem supplySound_fail {s : State} (hs : SupplySound s) (r : Rail) (k : FaultKind) : SupplySound (fail r k s) := by
  obtain ⟨u, hm, hb⟩ := moves_fail r k s
  exact ((hs.becomes (onlyRails_enterFault s r k) (becomes_enterFault s r k) rfl fun _ => rfl).moves hm).beside hb

theorem supplySound_committedAt (s : State) (v : Nat) : SupplySound (s.committedAt v) := by
  have hrail := s.rail_committedAt v
  refine supplySound_evaluated (v := v) rfl rfl rfl (fun r => ?_) fun r => ?_
  · rw [hrail]
    exact decide_eq_true_iff
  · rw [hrail]
    rfl

theorem supplySound_tick {s : State} (hs : SupplySound s) :
    SupplySound { s.tickTimers with timestamp := s.timestamp + 1 } := by
  have hrest := s.tickTimers_eq
  have hrail := s.rail_tickTimers
  generalize s.tickTimers = t at hrest hrail
  have hsound : SupplySound t := by
    refine hs.same (by rw [hrest]) (by rw [hrest]) (by rw [hrest]) (by rw [hrest]) (by rw [hrest]) (by rw [hrest]) ?_
      (fun r => by rw [hrail]) fun _ hnone r => by rw [hrail]; exact hnone r
    rw [hrest]
    exact Timer.tick_eq_stopped_iff _
  exact hsound.same rfl rfl rfl rfl rfl rfl Iff.rfl (fun _ => rfl) fun _ h => h

end Sys2Proof.Machine
end

/-! ### What a completion waits for, through an event (R99, R151, R153, R156) -/

section
namespace Sys2Proof.Machine

/-! #### One completion -/

/-- What the rail's record is like while a completion on it stays outstanding. -/
def WaitKind.standsAt (w : WaitKind) (x : RailRuntime) : Prop :=
  match w with
  | .claimWait v => x.state ≠ .fault ∧ (x.state = .on → x.level < v)
  | .offWait => x.state = .draining ∨ x.state = .slewing ∧ x.target = 0

/-- The claim entry that goes with a completion. -/
def WaitKind.goesWith (w : WaitKind) (claimed : Nat) : Prop :=
  match w with
  | .claimWait v => 1 ≤ v ∧ claimed = v
  | .offWait => claimed = 0

/-- An announcement made whose resolution does not hang on the rest of the event. -/
def WaitKind.answeredIn (w : WaitKind) (r : Rail) (log : List Announcement) : Prop :=
  ∃ a ∈ log, a.rail? = some r ∧ a ≠ .targetRose r ∧ ∀ level, (resolution a w level).isSome = true

/-- In the middle of an event, a completion stands, is answered by what has been announced, or waits for OFF on a rail in
SLEWING whose target has risen, which answers it where the rise stands. -/
inductive Upheld (log : List Announcement) (w : WaitKind) (r : Rail) (x : RailRuntime) : Prop where
  | stands : w.standsAt x → Upheld log w r x
  | answered : w.answeredIn r log → Upheld log w r x
  | risen : w = .offWait → x.state = .slewing → .targetRose r ∈ log → Upheld log w r x

theorem WaitKind.standsAt_of_same {w : WaitKind} {x y : RailRuntime} (h : w.standsAt x) (hstate : y.state = x.state)
    (hlevel : y.level = x.level) (htarget : y.target = x.target) : w.standsAt y := by
  unfold WaitKind.standsAt at h ⊢
  rwa [hstate, hlevel, htarget]

theorem WaitKind.standsAt_draining (w : WaitKind) {x : RailRuntime} (h : x.state = .draining) : w.standsAt x := by
  cases w with
  | claimWait v => exact ⟨by rw [h]; nofun, by rw [h]; nofun⟩
  | offWait => exact .inl h

section
variable {log log' : List Announcement} {w : WaitKind} {r : Rail} {x y : RailRuntime}

theorem Upheld.mono (h : Upheld log w r x) (hlog : ∀ a, a.rail? = some r → a ∈ log → a ∈ log') : Upheld log' w r x := by
  cases h with
  | stands h => exact .stands h
  | answered h =>
    obtain ⟨a, ha, hr, hrest⟩ := h
    exact .answered ⟨a, hlog a hr ha, hr, hrest⟩
  | risen hw hx ha => exact .risen hw hx (hlog _ rfl ha)

theorem Upheld.same (h : Upheld log w r x) (hstate : y.state = x.state) (hlevel : y.level = x.level)
    (htarget : y.target = x.target) : Upheld log w r y := by
  cases h with
  | stands h => exact .stands (WaitKind.standsAt_of_same h hstate hlevel htarget)
  | answered h => exact .answered h
  | risen hw hx ha => exact .risen hw (hstate.trans hx) ha

theorem SameButHolds.upheld (hxy : SameButHolds x y) (h : Upheld log w r x) : Upheld log w r y :=
  h.same hxy.state hxy.level hxy.target

theorem Upheld.draining (h : y.state = .draining) : Upheld log w r y := .stands (w.standsAt_draining h)

/-- From a state in which no OFF-WAIT stands into one in which every CLAIM-WAIT does. -/
theorem Upheld.pass (h : Upheld log w r x) (hd : x.state ≠ .draining) (hs : x.state ≠ .slewing) (hf : y.state ≠ .fault)
    (ho : y.state ≠ .on) : Upheld log w r y := by
  cases h with
  | answered h => exact .answered h
  | risen _ hx _ => exact absurd hx hs
  | stands h =>
    cases w with
    | claimWait v => exact .stands ⟨hf, fun h => absurd h ho⟩
    | offWait =>
      rcases h with h | h
      · exact absurd h hd
      · exact absurd h.1 hs

theorem Upheld.offed (hf : y.state ≠ .fault) (ho : y.state ≠ .on) : Upheld (log ++ [.enteredOff r]) w r y := by
  cases w with
  | claimWait v => exact .stands ⟨hf, fun h => absurd h ho⟩
  | offWait => exact .answered ⟨_, List.mem_append_right _ List.mem_cons_self, rfl, nofun, fun _ => rfl⟩

theorem Upheld.faulted (k : FaultKind) : Upheld (log ++ [.enteredFault r k]) w r y :=
  .answered ⟨_, List.mem_append_right _ List.mem_cons_self, rfl, nofun, fun _ => by cases w <;> rfl⟩

/-- A change of target, a rise from 0 outside DRAINING announced (R23). -/
theorem Upheld.retargeted (h : Upheld log w r x) (t : Nat) :
    Upheld (if x.target = 0 ∧ x.state ≠ .draining then log ++ [.targetRose r] else log) w r { x with target := t } := by
  have hgrown : Upheld (if x.target = 0 ∧ x.state ≠ .draining then log ++ [.targetRose r] else log) w r x :=
    h.mono fun a _ ha => by
      split
      · exact List.mem_append_left _ ha
      · exact ha
  cases hgrown with
  | answered h => exact .answered h
  | risen hw hx ha => exact .risen hw hx ha
  | stands h =>
    cases w with
    | claimWait v => exact .stands h
    | offWait =>
      rcases h with h | ⟨hs, h0⟩
      · exact .draining h
      · refine .risen rfl hs ?_
        rw [if_pos ⟨h0, by rw [hs]; nofun⟩]
        exact List.mem_append_right _ List.mem_cons_self

end

theorem state_toDrained (r : Rail) (x : RailRuntime) : (x.toDrained r).state = if x.target = 0 then .off else .waiting := rfl

theorem fault_toDrained (r : Rail) (x : RailRuntime) : (x.toDrained r).state ≠ .fault := by
  rw [state_toDrained]
  split <;> nofun

theorem on_toDrained (r : Rail) (x : RailRuntime) : (x.toDrained r).state ≠ .on := by
  rw [state_toDrained]
  split <;> nofun

/-! #### What the parts of an event keep of it -/

/-- From `e` to `e'`, no completion is left without its answer. -/
def Attends (e e' : Event) : Prop :=
  ∀ (base : List Announcement) (w : WaitKind) (r : Rail),
    Upheld (base ++ e.log) w r (e.st.rail r) → Upheld (base ++ e'.log) w r (e'.st.rail r)

theorem Attends.refl (e : Event) : Attends e e := fun _ _ _ h => h

theorem Attends.trans {e e' e'' : Event} (h : Attends e e') (h' : Attends e' e'') : Attends e e'' :=
  fun base w r hu => h' base w r (h base w r hu)

theorem Attends.foldl {α : Type} {f : Event → α → Event} (h : ∀ e a, Attends e (f e a)) (xs : List α) (e : Event) :
    Attends e (xs.foldl f e) := by
  induction xs generalizing e with
  | nil => exact .refl e
  | cons a xs ih => exact (h e a).trans (ih _)

/-- A move of one rail, with what is announced of it. -/
theorem Attends.becomes {e e' : Event} {r : Rail} {y : RailRuntime} (hb : Becomes e.st e'.st r y) (hlog : e.log ⊆ e'.log)
    (hself : ∀ base w, Upheld (base ++ e.log) w r (e.st.rail r) → Upheld (base ++ e'.log) w r y) : Attends e e' := by
  intro base w q hu
  by_cases hq : q = r
  · subst hq
    exact hb.self.upheld (hself base w hu)
  · refine ((hb.other hq).upheld hu).mono fun a _ ha => ?_
    rcases List.mem_append.mp ha with h | h
    · exact List.mem_append_left _ h
    · exact List.mem_append_right _ (hlog h)

theorem Attends.becomes_draining {e e' : Event} {r : Rail} {y : RailRuntime} (hb : Becomes e.st e'.st r y)
    (hlog : e.log ⊆ e'.log) (hy : y.state = .draining) : Attends e e' :=
  .becomes hb hlog fun _ _ _ => .draining hy

theorem Attends.becomes_pass {e e' : Event} {r : Rail} {y : RailRuntime} (hb : Becomes e.st e'.st r y) (hlog : e'.log = e.log)
    (hd : (e.st.rail r).state ≠ .draining) (hs : (e.st.rail r).state ≠ .slewing) (hf : y.state ≠ .fault)
    (ho : y.state ≠ .on) : Attends e e' :=
  .becomes hb (by rw [hlog]; exact List.Subset.refl _) fun _ _ h => by
    rw [hlog]
    exact h.pass hd hs hf ho

theorem attends_examineTarget {r : Rail} {e : Event} (hr : (e.st.rail r).state = .on) : Attends e (examineTarget r e) := by
  unfold examineTarget
  dsimp only
  split
  · exact .becomes_draining (becomes_enterDraining e.st r .normal) (List.Subset.refl _) rfl
  · split
    · exact .becomes_pass (becomes_enterSlewing e.st r) rfl (by rw [hr]; nofun) (by rw [hr]; nofun) nofun nofun
    · exact .refl e

theorem attends_actOnTarget (r : Rail) (e : Event) : Attends e (actOnTarget r e) := by
  unfold actOnTarget
  dsimp only
  split
  · next h =>
    split
    · exact .refl e
    · exact .becomes_pass (becomes_enterWaiting e.st r) rfl (by rw [h]; nofun) (by rw [h]; nofun) nofun nofun
  · next h =>
    split
    · exact .becomes_pass (becomes_leaveWaiting e.st r) rfl (by rw [h]; nofun) (by rw [h]; nofun) nofun nofun
    · exact .refl e
  · split
    · exact .becomes_draining (becomes_enterDraining e.st r .normal) (List.Subset.refl _) rfl
    · exact .refl e
  · next h => exact attends_examineTarget h
  · exact .refl e
  · exact .refl e
  · exact .refl e

theorem attends_takeTarget (r : Rail) (e : Event) : Attends e (takeTarget r e) := by
  have htaken : ∀ e1 : Event, e1.st = (e.st.modRail r fun y => { y with target := e.st.targetFor r }) →
      e1.log = (if (e.st.rail r).target = 0 ∧ (e.st.rail r).state ≠ .draining then e.log ++ [.targetRose r] else e.log) →
      Attends e e1 := fun e1 hst hlog => by
    refine .becomes (r := r) (y := { e.st.rail r with target := e.st.targetFor r }) ?_ ?_ fun base w h => ?_
    · rw [hst]
      exact becomes_modRail e.st r fun y => { y with target := e.st.targetFor r }
    · rw [hlog]
      split
      · exact List.subset_append_left _ _
      · exact List.Subset.refl _
    · refine (h.retargeted (e.st.targetFor r)).mono fun a _ ha => ?_
      rw [hlog]
      split at ha
      · next hrose => rwa [if_pos hrose, ← List.append_assoc]
      · next hrose => rwa [if_neg hrose]
  unfold takeTarget
  dsimp only
  split
  · exact .refl e
  · refine (htaken _ ?_ ?_).trans (attends_actOnTarget r _)
    · split <;> rfl
    · split <;> rfl

theorem attends_takeDeferredOff (r : Rail) (e : Event) : Attends e (takeDeferredOff r e) := by
  unfold takeDeferredOff
  dsimp only
  split
  · refine .becomes (becomes_finishDrain e.st r) (List.subset_append_left _ _) fun base w _ => ?_
    have h : Upheld ((base ++ e.log) ++ [.enteredOff r]) w r ((e.st.rail r).toDrained r) :=
      .offed (fault_toDrained r _) (on_toDrained r _)
    rwa [List.append_assoc] at h
  · exact .refl e

theorem attends_settle (e : Event) : Attends e (settle e) :=
  .foldl (fun e r => (attends_takeTarget r e).trans (attends_takeDeferredOff r _)) _ e

theorem mem_byRail {log : List Announcement} {a : Announcement} {r : Rail} (hr : a.rail? = some r) (ha : a ∈ log) :
    a ∈ byRail log :=
  List.mem_flatMap.mpr ⟨r, mem_allRails r, List.mem_filter.mpr ⟨ha, decide_eq_true hr⟩⟩

/-- The log in another order, and what was announced before it. -/
theorem Attends.ordered {e e' : Event} (h : Attends e e') {log : List Announcement}
    (hlog : ∀ (a : Announcement) (r : Rail), a.rail? = some r → a ∈ e'.log → a ∈ log) : Attends e ⟨e'.st, log⟩ :=
  fun base w r hu => (h base w r hu).mono fun a hr ha => by
    rcases List.mem_append.mp ha with hb | hl
    · exact List.mem_append_left _ hb
    · exact List.mem_append_right _ (hlog a r hr hl)

theorem Attends.after {s : State} {log : List Announcement} {e' : Event} (h : Attends ⟨s, []⟩ e') :
    Attends ⟨s, log⟩ ⟨e'.st, log ++ e'.log⟩ := fun base w r hu => by
  have hkept := h (base ++ log) w r (by rwa [List.append_nil])
  rwa [List.append_assoc] at hkept

theorem attends_railEvent (e : Event) : Attends e (railEvent e) := (attends_settle e).ordered fun _ _ => mem_byRail

theorem attends_settleAfter (e : Event) : Attends e (settleAfter e) :=
  .after (((attends_settle { e with log := [] })).ordered fun _ _ => mem_byRail)

theorem attends_forceOff (k : FaultKind) (e : Event) (r : Rail) : Attends e (forceOff k e r) := by
  unfold forceOff
  split
  · exact .becomes_draining (becomes_enterDraining e.st r .parentFault) (List.subset_append_left _ _) rfl
  · exact .refl e

theorem attends_cascade (k : FaultKind) (n : Nat) (gen : List Rail) (e : Event) : Attends e (cascade k n gen e) := by
  induction n generalizing gen e with
  | zero => exact .refl e
  | succ n ih =>
    unfold cascade
    split
    · exact .refl e
    · exact (Attends.foldl (attends_forceOff k) _ e).trans (ih _ _)

theorem attends_faultRail (r : Rail) (k : FaultKind) (e : Event) : Attends e (faultRail r k e) := by
  have hentered : Attends e ((e.mapState fun s => s.enterFault r k).announce (.enteredFault r k)) :=
    .becomes (becomes_enterFault e.st r k) (List.subset_append_left _ _) fun base w _ => by
      have h : Upheld ((base ++ e.log) ++ [.enteredFault r k]) w r ((e.st.rail r).toFault r k) := .faulted k
      rwa [List.append_assoc] at h
  exact hentered.trans ((attends_cascade k _ _ _).trans (attends_settleAfter _))

theorem attends_takeWholeFall (before : State) (log : List Announcement) (s : State) (r : Rail) :
    Attends ⟨s, log⟩ ⟨takeWholeFall before s r, log⟩ := by
  unfold takeWholeFall
  dsimp only
  split
  · exact .becomes_draining (becomes_wholeFall s r _) (List.Subset.refl _) rfl
  · exact .refl _

theorem attends_takeWholeFalls (before : State) (e : Event) : Attends e (takeWholeFalls before e) := by
  obtain ⟨s, log⟩ := e
  unfold takeWholeFalls Event.mapState
  dsimp only
  induction allRails generalizing s with
  | nil => exact .refl _
  | cons r rs ih => exact (attends_takeWholeFall before log s r).trans (ih _)

theorem attends_takeBudget (r : Rail) (n : Nat) (e : Event) : Attends e (e.mapState fun s => s.takeBudget r n) :=
  .becomes (becomes_modRail e.st r fun y => { y with held := y.held + n }) (List.Subset.refl _) fun _ _ h => h.same rfl rfl rfl

theorem attends_handGrant {before : State} {r : Rail} {k : GrantKind} {n : Nat} {e : Event}
    (hreq : e.st.requestOf r = some (k, n)) : Attends e (handGrant before r k n e) := by
  have htaken := attends_takeBudget r n e
  have hrail : ((e.mapState fun s => s.takeBudget r n).st.rail r).state = (e.st.rail r).state := by simp [Event.mapState]
  unfold handGrant
  cases k with
  | start =>
    have hw := State.waiting_of_start hreq
    dsimp only
    split
    · exact htaken.trans ((attends_faultRail r .backfeed _).trans (attends_takeWholeFalls before _))
    · refine htaken.trans (.becomes_pass (becomes_enterRamping _ r) rfl ?_ ?_ nofun nofun)
      · rw [hrail, hw]; nofun
      · rw [hrail, hw]; nofun
  | raise =>
    have ho := State.on_of_raise hreq
    refine htaken.trans (.becomes_pass (becomes_enterSlewing _ r) rfl ?_ ?_ nofun nofun)
    · rw [hrail, ho]; nofun
    · rw [hrail, ho]; nofun

/-- A state with the same rails. -/
theorem Attends.of_rails {s t : State} (h : t.rails = s.rails) (log : List Announcement) : Attends ⟨s, log⟩ ⟨t, log⟩ :=
  fun base w r hu => by
    have hr : t.rail r = s.rail r := by rw [State.rail, h]; rfl
    dsimp only at hu ⊢
    rwa [hr]

theorem attends_granted (before : State) (e : Event) : Attends { e with log := [] } (e.granted before) :=
  repeatRounds_keeps (P := Attends { e with log := [] })
    (fun s t log hq h => h.trans (.of_rails (by rw [hq]) log)) (fun _ _ _ _ hreq _ h => h.trans (attends_handGrant hreq)) _
    (.refl _)

/-! #### The completions of the sessions -/

/-- Every completion goes with its claim entry, and is upheld. -/
def Pending (log : List Announcement) (s : State) : Prop :=
  ∀ (l : Link) (r : Rail) (o : Outstanding), s.outstanding l r = some o →
    o.kind.goesWith (s.claim l r) ∧ Upheld log o.kind r (s.rail r)

/-- Every completion goes with its claim entry, and stands: what `OutstandingFits` says, completion by completion. -/
structure Standing (s : State) : Prop where
  each : ∀ (l : Link) (r : Rail) (o : Outstanding), s.outstanding l r = some o →
    o.kind.goesWith (s.claim l r) ∧ o.kind.standsAt (s.rail r)

theorem outstandingFits_iff (s : State) : OutstandingFits s ↔ Standing s := by
  constructor
  · refine fun h => ⟨fun l r o ho => ?_⟩
    have hat := h l r
    rw [ho] at hat
    obtain ⟨kind, tag⟩ := o
    cases kind with
    | claimWait v =>
      obtain ⟨hv, hclaim, hrest⟩ := hat
      exact ⟨⟨hv, hclaim⟩, hrest⟩
    | offWait => exact hat
  · intro h l r
    cases ho : s.outstanding l r with
    | none => trivial
    | some o =>
      obtain ⟨kind, tag⟩ := o
      have hat := h.each l r _ ho
      cases kind with
      | claimWait v =>
        obtain ⟨⟨hv, hclaim⟩, hrest⟩ := hat
        exact ⟨hv, hclaim, hrest⟩
      | offWait => exact hat

theorem Standing.pending {s : State} (h : Standing s) (log : List Announcement) : Pending log s :=
  fun l r o ho =>
    have ⟨hclaim, hstands⟩ := h.each l r o ho
    ⟨hclaim, .stands hstands⟩

theorem Pending.mono {s : State} {log log' : List Announcement} (h : Pending log s) (hlog : log ⊆ log') : Pending log' s :=
  fun l r o ho =>
    have ⟨hclaim, hup⟩ := h l r o ho
    ⟨hclaim, hup.mono fun _ _ ha => hlog ha⟩

theorem Pending.attends {e e' : Event} {base : List Announcement} (h : Pending (base ++ e.log) e.st) (ha : Attends e e')
    (ho : OnlyRails e.st e'.st) (hclaims : ∀ l r, e'.st.claim l r = e.st.claim l r) : Pending (base ++ e'.log) e'.st := fun l r o hout => by
  have hsame : e'.st.outstanding l r = e.st.outstanding l r := by rw [State.outstanding, ho.session]; rfl
  rw [hsame] at hout
  have ⟨hclaim, hup⟩ := h l r o hout
  exact ⟨by rw [hclaims]; exact hclaim, ha base o.kind r hup⟩

theorem Session.foldl_takes_table (s : State) (reserve : Option Link) (l : Link) (log : List Announcement) (x : Session)
    (r : Rail) : (log.foldl (Session.takes s reserve l) x).table.get r = none
      ∨ (log.foldl (Session.takes s reserve l) x).table.get r = x.table.get r := by
  induction log generalizing x with
  | nil => exact .inr rfl
  | cons a log ih =>
    rw [List.foldl_cons]
    have hfirst := Session.table_takes s reserve l x a r
    split at hfirst
    · exact .inl (Session.foldl_takes_table_none s reserve l log hfirst)
    · rw [← hfirst]
      exact ih _

/-- What the announcements leave outstanding was outstanding, and none of them resolves it. -/
theorem outstanding_of_takes {s t w : State} {reserve : Option Link} {log : List Announcement} {l : Link}
    (hsession : t.session l = log.foldl (Session.takes w reserve l) (s.session l)) {r : Rail} {o : Outstanding}
    (hout : t.outstanding l r = some o) (hatt : (s.session l).state = .attached) :
    s.outstanding l r = some o ∧ ∀ a ∈ log, a.rail? = some r → (resolution a o.kind (w.rail r).level).isSome = false := by
  have ht : (log.foldl (Session.takes w reserve l) (s.session l)).table.get r = some o := hsession ▸ hout
  have hs : (s.session l).table.get r = some o := by
    rcases Session.foldl_takes_table w reserve l log (s.session l) r with h | h
    · exact nomatch h.symm.trans ht
    · exact h.symm.trans ht
  refine ⟨hs, fun a ha hr => Bool.eq_false_iff.mpr fun hres => ?_⟩
  have hnone := (Session.resolved_foldl_takes w reserve l hatt hs (P := fun _ => True) ⟨a, ha, hr, hres⟩
    fun _ _ _ _ _ _ _ => trivial).1
  exact nomatch hnone.symm.trans ht

/-- A completion upheld through the event, and answered by nothing that stands at its end, stands. -/
theorem Upheld.standing {log : List Announcement} {w : WaitKind} {r : Rail} {s : State} (h : Upheld log w r (s.rail r))
    (hnone : ∀ a ∈ log, a.stands s = true → a.rail? = some r → (resolution a w (s.rail r).level).isSome = false) :
    w.standsAt (s.rail r) := by
  cases h with
  | stands h => exact h
  | answered h =>
    obtain ⟨a, ha, hr, hne, hres⟩ := h
    have hstands : a.stands s = true := by
      cases a with
      | targetRose q => exact absurd (congrArg Announcement.targetRose (Option.some.inj hr)) hne
      | _ => rfl
    exact nomatch (hnone a ha hstands hr).symm.trans (hres _)
  | risen hw hx ha =>
    subst hw
    refine .inr ⟨hx, Classical.byContradiction fun ht => ?_⟩
    have h := hnone _ ha (bne_iff_ne.mpr ht) rfl
    cases h

theorem Pending.conclude {reserve : Option Link} {lead : List Announcement} {before : State} {e : Event}
    (h : Pending (lead ++ e.log) e.st) (hs : SessionsSound e.st) : Standing (conclude reserve lead before e) := by
  have hgranted := (h.attends (attends_granted before e).after (onlyRails_granted before e) (railsReact_granted before e).claim)
  refine ⟨fun l r o hout => ?_⟩
  rw [claim_conclude, rail_conclude]
  have hsession := session_conclude reserve lead before e l
  by_cases hatt : (e.st.session l).state = .attached
  · have hsame : (e.granted before).st.outstanding l r = e.st.outstanding l r := by
      rw [State.outstanding, (onlyRails_granted before e).session]
      rfl
    obtain ⟨hout', hnone⟩ := outstanding_of_takes hsession hout hatt
    obtain ⟨hclaim, hup⟩ := hgranted l r o (hsame.trans hout')
    refine ⟨hclaim, hup.standing fun a ha hstands hr => hnone a (List.mem_filter.mpr ⟨?_, hstands⟩) hr⟩
    dsimp only at ha
    simpa only [List.mem_append, mem_placeGroups, or_assoc] using ha
  · rw [Session.foldl_takes_of_unattached _ reserve l _ hatt] at hsession
    have hout' : (e.st.session l).table.get r = some o := hsession ▸ hout
    exact nomatch (((hs l).1.detached hatt).2.2.1 r).symm.trans hout'

theorem Pending.railTurn {s : State} (reserve : Option Link) (lead log : List Announcement) (h : Pending (lead ++ log) s)
    (hs : SessionsSound s) : Standing (railTurn reserve lead ⟨s, log⟩) := by
  have ho := onlyRails_railEvent ⟨s, log⟩
  have hr := railsReact_railEvent ⟨s, log⟩
  have hpending := Pending.attends (e := ⟨s, log⟩) (base := lead) h (attends_railEvent _) ho hr.claim
  unfold Machine.railTurn
  generalize railEvent ⟨s, log⟩ = e at ho hr hpending
  exact hpending.conclude (hs.railed ho hr)

theorem standing_fail {s : State} (r : Rail) (k : FaultKind) (h : Standing s) (hs : SessionsSound s) :
    Standing (fail r k s) := by
  have ho := onlyRails_faultRail r k ⟨s, []⟩
  have hinputs := (moves_faultRail r k ⟨s, []⟩).inputs
  have hclaims (l : Link) (q : Rail) : (faultRail r k ⟨s, []⟩).st.claim l q = s.claim l q :=
    (State.claim_of_claims_eq (hinputs q).1 l).trans ((becomes_enterFault s r k).claim rfl l q)
  have hpending := Pending.attends (base := []) (h.pending _) (attends_faultRail r k ⟨s, []⟩) ho hclaims
  unfold fail concludeGroup
  generalize faultRail r k ⟨s, []⟩ = e at ho hclaims hpending
  refine Pending.conclude (e := ⟨e.st, []⟩) ?_ (hs.same ho.session hclaims)
  rwa [List.append_nil]

end Sys2Proof.Machine
end

/-! ### The outstanding completions after every command (R62, R66, R67, R141) -/

section
namespace Sys2Proof.Machine

/-- What the completions of a part rest on between commands. -/
structure Attended (s : State) : Prop where
  sessions : SessionsSound s
  standing : Standing s
  steady : s.lifecycle = .committed → Steady s
  idle : s.lifecycle = .uncommitted → ∀ (l : Link) (r : Rail), s.outstanding l r = none

theorem Coherent.attended {s : State} (hs : Coherent s) : Attended s where
  sessions := hs.sessions
  standing := (outstandingFits_iff s).mp hs.outstanding
  steady hc := ⟨hs.calm hc, hs.aimed⟩
  idle hu := ((idleBeforeCommit_iff s).mp hs.idle hu).outstanding

/-! #### From one state to another -/

theorem Becomes.standsAt {s t : State} {r : Rail} {y : RailRuntime} (hb : Becomes s t r y) {w : WaitKind}
    (hself : w.standsAt (s.rail r) → w.standsAt y) {q : Rail} (h : w.standsAt (s.rail q)) : w.standsAt (t.rail q) := by
  by_cases hq : q = r
  · subst hq
    exact WaitKind.standsAt_of_same (hself h) hb.self.state hb.self.level hb.self.target
  · exact WaitKind.standsAt_of_same h (hb.other hq).state (hb.other hq).level (hb.other hq).target

/-- Completions given up or kept, each with its claim entry, on rails that uphold them. -/
theorem Standing.pendingAt {s t : State} {log : List Announcement} (h : Standing s)
    (hout : ∀ l r, t.outstanding l r = none ∨ (t.outstanding l r = s.outstanding l r ∧ t.claim l r = s.claim l r))
    (hup : ∀ (w : WaitKind) (r : Rail), w.standsAt (s.rail r) → Upheld log w r (t.rail r)) : Pending log t := by
  intro l r o ho
  rcases hout l r with hnone | ⟨hkept, hclaim⟩
  · exact nomatch hnone.symm.trans ho
  · obtain ⟨hgoes, hstands⟩ := h.each l r o (hkept.symm.trans ho)
    exact ⟨by rwa [hclaim], hup _ r hstands⟩

theorem Standing.kept {s t : State} (h : Standing s)
    (hout : ∀ l r, t.outstanding l r = none ∨ (t.outstanding l r = s.outstanding l r ∧ t.claim l r = s.claim l r))
    (hup : ∀ (w : WaitKind) (r : Rail), w.standsAt (s.rail r) → w.standsAt (t.rail r)) : Standing t := by
  refine ⟨fun l r o ho => ?_⟩
  rcases hout l r with hnone | ⟨hkept, hclaim⟩
  · exact nomatch hnone.symm.trans ho
  · obtain ⟨hgoes, hstands⟩ := h.each l r o (hkept.symm.trans ho)
    exact ⟨by rwa [hclaim], hup _ r hstands⟩

theorem standing_of_none {s : State} (h : ∀ l r, s.outstanding l r = none) : Standing s :=
  ⟨fun l r _ ho => nomatch (h l r).symm.trans ho⟩

theorem Standing.thinned {s t : State} (h : Standing s) (hrails : t.rails = s.rails)
    (hout : ∀ l r, t.outstanding l r = none ∨ t.outstanding l r = s.outstanding l r) : Standing t := by
  have hrail (r : Rail) : t.rail r = s.rail r := by rw [State.rail, hrails]; rfl
  exact h.kept (fun l r => (hout l r).imp_right fun he => ⟨he, State.claim_of_claims_eq (by rw [hrail]) l⟩)
    fun _ r hw => by rwa [hrail]

theorem Standing.same {s t : State} (h : Standing s) (hrails : t.rails = s.rails)
    (hsessions : t.sessions = s.sessions) : Standing t :=
  h.thinned hrails fun l r => .inr (by rw [State.outstanding, State.session, hsessions]; rfl)

/-- A session rewritten with its table as it was. -/
theorem Standing.modSession {s : State} (h : Standing s) (l : Link) (f : Session → Session)
    (hf : (f (s.session l)).table = (s.session l).table) : Standing (s.modSession l f) :=
  h.thinned rfl fun m r => .inr (by
    unfold State.outstanding
    rw [State.session_modSession]
    split
    · next hm => rw [hm, hf]
    · rfl)

theorem outstanding_renewLease (s : State) (l m : Link) (r : Rail) : (s.renewLease l).outstanding m r = s.outstanding m r := by
  unfold State.renewLease
  split
  · unfold State.outstanding
    rw [State.session_modSession]
    split
    · next h => rw [h]
    · rfl
  · rfl

/-- A part on which beside the rails only the sessions and the lines have moved. -/
theorem Attended.beside {s t : State} (hs : Attended s) (hb : Beside s t) (hsessions : SessionsSound t)
    (hout : ∀ l r, t.outstanding l r = none ∨ t.outstanding l r = s.outstanding l r) : Attended t where
  sessions := hsessions
  standing := hs.standing.thinned (by rw [hb]) hout
  steady hc := (hs.steady (by rw [hb] at hc; exact hc)).beside hb
  idle hu l r := (hout l r).elim id fun h => h.trans (hs.idle (by rw [hb] at hu; exact hu) l r)

theorem Attended.sense {s : State} (hs : Attended s) (v : Nat) : Attended { s with sense := v } :=
  hs.beside rfl (hs.sessions.beside rfl rfl) fun _ _ => .inr rfl

theorem Attended.renewLease {s : State} (hs : Attended s) (l : Link) : Attended (s.renewLease l) :=
  hs.beside (beside_renewLease s l) (sound_renewLease l hs.sessions) fun m r => .inr (outstanding_renewLease s l m r)

/-! #### Requests -/

theorem standing_respond {s : State} (l : Link) (tag : Byte) (st : Status) (data : List Byte) (h : Standing s) :
    Standing (s.respond l tag st data) := h.same rfl rfl

theorem standing_serve {s : State} {k : Kind} {l : Link} {f : Frame} {body : State → Answer} (hs : Attended s)
    (h : ∀ t : State, Attended t → sessionRefusal k (t.session l).state = none → lifecycleRefusal k t.lifecycle = none →
      Standing (body t).st) : Standing (s.serve k l f body) := by
  have hlease := hs.renewLease l
  unfold State.serve
  split
  · split
    · exact standing_respond _ _ _ _ hs.standing
    · split
      · exact standing_respond _ _ _ _ hs.standing
      · next hnone =>
        dsimp only
        split
        · exact standing_respond _ _ _ _ hlease.standing
        · next hlife => exact standing_respond _ _ _ _ (h _ hlease (by rw [state_renewLease]; exact hnone) hlife)
  · exact hs.standing

theorem committed_of_lifecycleRefusal {k : Kind} {x : Lifecycle} (hk : k = .claim ∨ k = .release ∨ k = .clearFault)
    (h : lifecycleRefusal k x = none) : x = .committed := by
  cases x with
  | committed => rfl
  | uncommitted =>
    unfold lifecycleRefusal at h
    rw [if_pos hk] at h
    cases h

theorem standsAt_setClaim {s : State} (l : Link) (r : Rail) (v : Nat) {w : WaitKind} {q : Rail}
    (h : w.standsAt (s.rail q)) : w.standsAt ((s.setClaim l r v).rail q) :=
  (becomes_modRail s r fun x => { x with claims := x.claims.set l.val v l.isLt }).standsAt
    (fun h => WaitKind.standsAt_of_same (x := s.rail r) h rfl rfl rfl) h

/-- A claim entry rewritten, where the completion on the rail, if any, goes with the new entry. -/
theorem standing_rewriteClaim {s : State} (reserve : Option Link) {l : Link} {r : Rail} {v : Nat} (hs : SessionsSound s)
    (h : Standing s) (hatt : (s.session l).state = .attached)
    (hgoes : ∀ o, s.outstanding l r = some o → o.kind.goesWith v) : Standing (rewriteClaim reserve l r v s) := by
  have hpending : Pending [] (s.setClaim l r v) := fun m q o ho => by
    obtain ⟨hclaim, hstands⟩ := h.each m q o ho
    refine ⟨?_, .stands (standsAt_setClaim l r v hstands)⟩
    rw [State.claim_setClaim]
    split
    · next heq => exact hgoes o (by rw [← heq.1, ← heq.2]; exact ho)
    · exact hclaim
  have hsound : SessionsSound (s.setClaim l r v) := hs.setClaim fun hn => absurd hatt hn
  unfold rewriteClaim
  generalize s.setClaim l r v = m at hpending hsound
  exact Pending.railTurn reserve [] [] hpending hsound

theorem outstanding_other {s t : State} {l : Link} (h : ∀ m, m ≠ l → t.session m = s.session m) {m : Link} (hm : m ≠ l)
    (r : Rail) : t.outstanding m r = s.outstanding m r := by
  rw [State.outstanding, h m hm]
  rfl

/-- A completion closed. -/
theorem Attended.close {s : State} (hs : Attended s) {l : Link} (hatt : (s.session l).state = .attached) (r : Rail)
    (code : EventCode) : Attended (closeOutstanding l r code s) := by
  refine hs.beside (beside_closeOutstanding ..) (sound_closeOutstanding l r code hs.sessions ((hs.sessions l).1.roomFor hatt)).1
    fun m q => ?_
  by_cases hm : m = l
  · subst hm
    rw [outstanding_closeOutstanding]
    split
    · exact .inl rfl
    · exact .inr rfl
  · exact .inr (outstanding_other (fun _ => session_closeOutstanding_other l r code s) hm q)

theorem claim_rewriteClaim (reserve : Option Link) (l : Link) (r : Rail) (v : Nat) (s : State) :
    (rewriteClaim reserve l r v s).claim l r = v := by
  have h := (follows_railTurn reserve [] [] (s.setClaim l r v)).claim l r
  have hset : (s.setClaim l r v).claim l r = v := by
    rw [State.claim_setClaim]
    exact if_pos ⟨rfl, rfl⟩
  unfold rewriteClaim
  generalize s.setClaim l r v = m at h hset
  exact h.trans hset

/-- A completion set up that its claim entry and, where it is not answered at once, its rail go with. -/
theorem standing_setUp {s : State} {l : Link} {r : Rail} {o : Outstanding} {outcome : Option (EventCode × Nat × Detail)}
    (h : Standing s) (hgoes : o.kind.goesWith (s.claim l r)) (hstands : outcome = none → o.kind.standsAt (s.rail r)) :
    Standing (setUp l r o outcome s) := by
  have hrest := beside_setUp l r o outcome s
  refine ⟨fun m q o' ho' => ?_⟩
  have hclaim : (setUp l r o outcome s).claim m q = s.claim m q := State.claim_of_claims_eq (by rw [hrest.rail]) m
  rw [hclaim, hrest.rail]
  by_cases hm : m = l
  · subst hm
    by_cases hq : q = r
    · subst hq
      cases hout : outcome with
      | none =>
        rw [setUp_outstanding hout] at ho'
        cases ho'
        exact ⟨hgoes, hstands hout⟩
      | some d => exact nomatch (setUp_answered hout).1.symm.trans ho'
    · rw [outstanding_setUp_other hq] at ho'
      exact h.each m q o' ho'
  · rw [outstanding_other (fun _ => session_setUp_other l r o outcome s) hm q] at ho'
    exact h.each m q o' ho'

theorem standsAt_of_claimOutcome {x : RailRuntime} {v : Nat} (h : claimOutcome x v = none) :
    WaitKind.standsAt (.claimWait v) x := by
  unfold claimOutcome at h
  split at h
  · cases h
  · next hf =>
    split at h
    · cases h
    · next ho => exact ⟨hf, fun hx => Nat.lt_of_not_le fun hv => ho ⟨hx, hv⟩⟩

theorem standsAt_of_offOutcome {x : RailRuntime} (hx : Acted x) (hlevel : x.state = .on → x.level ≠ 0)
    (h : offOutcome x = none) : WaitKind.standsAt .offWait x := by
  unfold offOutcome at h
  split at h
  · cases h
  · next ht =>
    have ht : x.target = 0 := Decidable.not_not.mp ht
    split at h
    · cases h
    · next hidle =>
      unfold WaitKind.standsAt
      dsimp only
      cases hs : x.state with
      | off => exact absurd (.inl hs) hidle
      | fault => exact absurd (.inr hs) hidle
      | waiting => exact absurd ht (hx.waiting hs)
      | ramping => exact absurd ht (hx.ramping hs)
      | on => exact absurd (Nat.le_zero.mp (ht ▸ hx.on hs)) (hlevel hs)
      | slewing => exact .inr ⟨rfl, ht⟩
      | draining => exact .inl rfl

theorem standing_claimAnswer {s : State} {l : Link} (f : Frame) (hs : Attended s) (hatt : (s.session l).state = .attached) :
    Standing (claimAnswer l f s).st := by
  unfold claimAnswer
  split
  · exact hs.standing
  · next r _ =>
    dsimp only
    split
    · exact hs.standing
    · next hlevel =>
      split
      · exact hs.standing
      · dsimp only
        unfold claimTaken
        dsimp only
        have hclosed := hs.close hatt r .superseded
        have hatt' : ((closeOutstanding l r .superseded s).session l).state = .attached := by
          rw [session_closeOutstanding]
          exact hatt
        have hnone := outstanding_closeOutstanding l r .superseded s r
        rw [if_pos rfl] at hnone
        generalize closeOutstanding l r .superseded s = c at hclosed hatt' hnone
        have hturned := standing_rewriteClaim (some l) (v := (argByte f 1).toNat) hclosed.sessions hclosed.standing hatt'
          fun o ho => nomatch hnone.symm.trans ho
        have hclaim := claim_rewriteClaim (some l) l r (argByte f 1).toNat c
        generalize rewriteClaim (some l) l r (argByte f 1).toNat c = w at hturned hclaim
        exact standing_setUp hturned ⟨Nat.pos_of_ne_zero (not_or.mp hlevel).1, hclaim⟩ standsAt_of_claimOutcome

theorem steady_release {s : State} (hs : Steady s) (reserve : Option Link) (l : Link) (r : Rail) :
    Steady (rewriteClaim reserve l r 0 s) := by
  have h := calm_setClaim hs.toCalm l r (v := 0) (Nat.zero_le _) fun _ => rfl
  unfold rewriteClaim
  generalize s.setClaim l r 0 = m at h
  exact steady_railTurn h reserve [] []

theorem standing_releaseNow {s : State} {l : Link} (r : Rail) (hs : Attended s) (hatt : (s.session l).state = .attached) :
    Standing (releaseNow l r s) := by
  by_cases hwait : ∃ level tag, s.outstanding l r = some ⟨.claimWait level, tag⟩
  · obtain ⟨level, tag, hout⟩ := hwait
    rw [releaseNow_of_claimWait hout]
    have hclosed := hs.close hatt r .cancelled
    have hatt' : ((closeOutstanding l r .cancelled s).session l).state = .attached := by
      rw [session_closeOutstanding]
      exact hatt
    have hnone := outstanding_closeOutstanding l r .cancelled s r
    rw [if_pos rfl] at hnone
    generalize closeOutstanding l r .cancelled s = c at hclosed hatt' hnone
    exact standing_rewriteClaim none hclosed.sessions hclosed.standing hatt' fun o ho => nomatch hnone.symm.trans ho
  · have hnot (level : Nat) (tag : Byte) : s.outstanding l r ≠ some ⟨.claimWait level, tag⟩ := fun h => hwait ⟨_, _, h⟩
    rw [releaseNow_of_none hnot]
    refine standing_rewriteClaim none hs.sessions hs.standing hatt fun o ho => ?_
    obtain ⟨kind, tag⟩ := o
    cases kind with
    | claimWait level => exact absurd ho (hnot level tag)
    | offWait => rfl

theorem standing_releaseWaiting {s : State} {l : Link} (r : Rail) (tag : Byte) (hs : Attended s)
    (hatt : (s.session l).state = .attached) (hc : s.lifecycle = .committed) : Standing (releaseWaiting l r tag s) := by
  unfold releaseWaiting
  dsimp only
  have hclosed := hs.close hatt r .superseded
  have hatt' : ((closeOutstanding l r .superseded s).session l).state = .attached := by
    rw [session_closeOutstanding]
    exact hatt
  have hc' : (closeOutstanding l r .superseded s).lifecycle = .committed := by
    rw [closeOutstanding_eq]
    exact hc
  have hnone := outstanding_closeOutstanding l r .superseded s r
  rw [if_pos rfl] at hnone
  generalize closeOutstanding l r .superseded s = c at hclosed hatt' hc' hnone
  have hturned := standing_rewriteClaim (some l) (v := 0) hclosed.sessions hclosed.standing hatt' fun o ho => nomatch hnone.symm.trans ho
  have hclaim := claim_rewriteClaim (some l) l r 0 c
  have hsteady := steady_release (hclosed.steady hc') (some l) l r
  generalize rewriteClaim (some l) l r 0 c = w at hturned hclaim hsteady
  refine standing_setUp hturned hclaim (standsAt_of_offOutcome (hsteady.acted r) fun hon => ?_)
  have h := (hsteady.sized r).powered (.inl (by rw [hon]; rfl))
  omega

theorem standing_releaseAnswer {s : State} {l : Link} (f : Frame) (hs : Attended s) (hatt : (s.session l).state = .attached)
    (hc : s.lifecycle = .committed) : Standing (releaseAnswer l f s).st := by
  unfold releaseAnswer
  split
  · exact hs.standing
  · next r _ =>
    split
    · dsimp only
      exact standing_releaseNow r hs hatt
    · split
      · split
        · exact hs.standing
        · dsimp only
          exact standing_releaseWaiting r f.tag hs hatt hc
      · exact hs.standing

/-- A rail in FAULT has no completion outstanding on it, so that a cleared one answers none. -/
theorem standing_clearFaultAnswer {s : State} (l : Link) (f : Frame) (hs : Attended s) (hc : s.lifecycle = .committed) :
    Standing (clearFaultAnswer l f s).st := by
  unfold clearFaultAnswer
  split
  · exact hs.standing
  · next r _ =>
    dsimp only
    split
    · exact hs.standing
    · split
      · exact hs.standing
      · next hlatch =>
        split
        · exact hs.standing
        · have hfault : (s.rail r).state = .fault :=
            ((hs.steady hc).shape r).latch.mp (by simpa using hlatch)
          have hnot (w : WaitKind) : ¬w.standsAt (s.rail r) := by
            unfold WaitKind.standsAt
            rw [hfault]
            cases w with
            | claimWait v => exact fun h => h.1 rfl
            | offWait => rintro (h | ⟨h, -⟩) <;> cases h
          dsimp only
          unfold clearFaultTaken
          dsimp only
          have hb := becomes_moveRail s r fun y =>
            { y with faultLatch := false, level := 0, state := if y.target = 0 then .off else .waiting }
          have ho := onlyRails_moveRail s r fun y =>
            { y with faultLatch := false, level := 0, state := if y.target = 0 then .off else .waiting }
          have hclaims := hb.claim rfl
          generalize (s.moveRail r fun y =>
            { y with faultLatch := false, level := 0, state := if y.target = 0 then .off else .waiting }) = m at hb ho hclaims
          have hpending : Pending [.faultCleared r (s.rail r).faultKind l] m :=
            hs.standing.pendingAt (fun m q => .inr ⟨by rw [State.outstanding, ho.session]; rfl, hclaims m q⟩)
              fun w q h => .stands (hb.standsAt (fun h => absurd h (hnot w)) h)
          exact Pending.railTurn none [] _ hpending (hs.sessions.same ho.session hclaims)

/-! #### The other commands -/

/-- A session torn down has no completion left, and the others keep theirs with their claims. -/
theorem standing_teardown {s : State} (l : Link) {st : SessionState} (hst : st ≠ .attached) (hs : SessionsSound s)
    (h : Standing s) : Standing (teardown l st s) := by
  have hrail (r : Rail) : (s.without l st).rail r = { s.rail r with claims := (s.rail r).claims.set l.val 0 l.isLt } :=
    get_map ..
  have hsession (m : Link) : (s.without l st).session m = if m = l then (s.session l).gone st else s.session m := get_set ..
  have hsound := sound_without l hst hs
  rw [teardown_eq]
  generalize s.without l st = m at hrail hsession hsound
  refine Pending.railTurn none [] [] (h.pendingAt (fun k r => ?_) fun w r hw => .stands ?_) hsound
  · by_cases hk : k = l
    · refine .inl ?_
      rw [State.outstanding, hsession, if_pos hk]
      exact get_replicate ..
    · refine .inr ⟨?_, ?_⟩
      · rw [State.outstanding, hsession, if_neg hk]
        rfl
      · rw [State.claim, hrail, get_set, if_neg hk]
        rfl
  · rw [hrail]
    exact WaitKind.standsAt_of_same hw rfl rfl rfl

/-- A rail that reaches ON answers the CLAIM-WAITs at or below its level, and drains where an OFF-WAIT is outstanding on it. -/
theorem pending_onExamined {s : State} {r : Rail} (h : Standing s)
    (hr : (s.rail r).state = .ramping ∨ (s.rail r).state = .slewing) : Pending (onExamined r s).log (onExamined r s).st := by
  have hb := becomes_onExamined (s := s) r
  have ho := onlyRails_onExamined s r
  have hon := becomes_enterOn s r
  have hstate : ((s.enterOn r).rail r).state = .on := hon.self.state
  have hlevel : ((s.enterOn r).rail r).level = (s.rail r).level := hon.self.level
  have htarget : ((s.enterOn r).rail r).target = (s.rail r).target := hon.self.target
  have hexamined := attends_examineTarget (e := ⟨s.enterOn r, [.enteredOn r ((s.enterOn r).rail r).level]⟩) hstate
  have hinputs := (moves_onExamined s r).inputs
  have hclaims (l : Link) (q : Rail) : (onExamined r s).st.claim l q = s.claim l q :=
    (State.claim_of_claims_eq (hinputs q).1 l).trans (hon.claim rfl l q)
  refine h.pendingAt (fun l q => .inr ⟨by rw [State.outstanding, ho.session]; rfl, hclaims l q⟩) fun w q hw => ?_
  by_cases hq : q = r
  · subst hq
    by_cases ht : (s.rail q).target = 0
    · refine .draining (hb.self.state.trans ?_)
      exact congrArg RailRuntime.state (RailRuntime.acts_of_on_zero q (s.record q) ((s.rail q).toOn q (s.record q)) rfl ht)
    · refine hexamined [] w q ?_
      dsimp only
      cases w with
      | offWait =>
        rcases hw with hd | ⟨-, hw⟩
        · rcases hr with h | h <;> exact nomatch h.symm.trans hd
        · exact absurd hw ht
      | claimWait v =>
        by_cases hv : v ≤ (s.rail q).level
        · refine .answered ⟨_, List.mem_cons_self, rfl, nofun, fun level => ?_⟩
          unfold resolution
          rw [hlevel]
          simp [hv]
        · exact .stands ⟨by rw [hstate]; nofun, fun _ => by rw [hlevel]; exact Nat.lt_of_not_le hv⟩
  · exact (hb.other hq).upheld (.stands hw)

theorem standing_reachOn {s : State} {r : Rail} (hs : SessionsSound s) (h : Standing s)
    (hr : (s.rail r).state = .ramping ∨ (s.rail r).state = .slewing) : Standing (reachOn r s) := by
  have hpending := pending_onExamined h hr
  have ho := onlyRails_onExamined s r
  have hinputs := (moves_onExamined s r).inputs
  have hclaims (l : Link) (q : Rail) : (onExamined r s).st.claim l q = s.claim l q :=
    (State.claim_of_claims_eq (hinputs q).1 l).trans ((becomes_enterOn s r).claim rfl l q)
  change Standing (railTurn none [] (onExamined r s))
  generalize onExamined r s = e at hpending ho hclaims
  exact Pending.railTurn none [] e.log hpending (hs.same ho.session hclaims)

theorem standing_drained {w : WaitKind} {x : RailRuntime} (r : Rail) (rec : RailRecord) (c : DrainCause) (h : w.standsAt x) :
    w.standsAt (x.drainedIfRunning r rec c) := by
  unfold RailRuntime.drainedIfRunning
  split
  · exact w.standsAt_draining rfl
  · exact h

theorem standing_changeSupply {s : State} (st : SupplyState) (hs : SessionsSound s) (h : Standing s) :
    Standing (changeSupply st s) := by
  have ho := onlyRails_supplyFound st s
  have hr := railsReact_supplyFound st s
  have hclaims (l : Link) (r : Rail) : (supplyFound st s).claim l r = s.claim l r :=
    (hr.claim l r).trans (State.claim_of_claims_eq (by rw [State.rail_supplied]) l)
  have hstands (w : WaitKind) (r : Rail) (hw : w.standsAt (s.rail r)) : w.standsAt ((supplyFound st s).rail r) := by
    have hsup : w.standsAt ((s.supplied (s.supply.entering s.part st)).rail r) := by
      rw [State.rail_supplied]
      exact WaitKind.standsAt_of_same hw rfl rfl rfl
    unfold supplyFound
    dsimp only
    split
    · have hd := rail_drainRunning (s.supplied (s.supply.entering s.part st)) .collapse r
      exact WaitKind.standsAt_of_same (standing_drained r _ .collapse hsup) hd.state hd.level hd.target
    · exact hsup
  rw [changeSupply_eq_railTurn]
  have hsession := ho.session
  generalize supplyFound st s = m at hclaims hstands hsession
  exact Pending.railTurn none _ [] (h.pendingAt (fun l r => .inr ⟨by rw [State.outstanding, hsession]; rfl, hclaims l r⟩)
    fun w r hw => .stands (hstands w r hw)) (hs.same hsession hclaims)

theorem standing_pgChange {s : State} (r : Rail) (level : Line) (hs : SessionsSound s) (h : Standing s) :
    Standing (pgChange r level s) := by
  have hpg : Standing (s.modRail r fun x => { x with pg := level }) :=
    h.kept (fun l q => .inr ⟨rfl, (becomes_modRail s r _).claim rfl l q⟩) fun w q =>
      (becomes_modRail s r fun x => { x with pg := level }).standsAt fun h =>
        WaitKind.standsAt_of_same (x := s.rail r) h rfl rfl rfl
  have hsound : SessionsSound (s.modRail r fun x => { x with pg := level }) := hs.modRail r rfl
  have hstate : ((s.modRail r fun x => { x with pg := level }).rail r).state = (s.rail r).state := by simp
  unfold pgChange
  split
  · exact h
  · dsimp only
    generalize (s.modRail r fun x => { x with pg := level }) = a at hpg hsound hstate
    split
    · split
      · next hs _ => exact standing_reachOn hsound hpg (.inl (hstate.trans hs))
      · next hs _ => exact standing_fail r .pgLost hpg hsound
      · exact hpg
    · exact hpg

theorem standing_rampExpiry {s : State} (r : Rail) (hs : SessionsSound s) (h : Standing s) : Standing (rampExpiry r s) := by
  unfold rampExpiry
  split
  · next hdue =>
    split
    · exact standing_fail r .rampTimeout h hs
    · exact standing_reachOn hs h (.inl hdue.1)
  · exact h

theorem standing_slewExpiry {s : State} (r : Rail) (hs : SessionsSound s) (h : Standing s) : Standing (slewExpiry r s) := by
  unfold slewExpiry
  split
  · next hdue =>
    split
    · exact standing_fail r .slewFail h hs
    · exact standing_reachOn hs h (.inr hdue.1)
  · exact h

theorem standing_drainExpiry {s : State} (r : Rail) (hs : SessionsSound s) (h : Standing s) : Standing (drainExpiry r s) := by
  unfold drainExpiry
  split
  · next hdue =>
    split
    · exact standing_fail r .drainStuck h hs
    · have hb := becomes_modRail s r fun x => { x with timer := .stopped, drainFinished := true }
      have hclaims := hb.claim rfl
      have hstands {w : WaitKind} {q : Rail} := hb.standsAt (w := w) (q := q) fun h =>
        WaitKind.standsAt_of_same (x := s.rail r) h rfl rfl rfl
      have hsound : SessionsSound (s.modRail r fun x => { x with timer := .stopped, drainFinished := true }) := hs.modRail r rfl
      have hsession : ∀ l, (s.modRail r fun x => { x with timer := .stopped, drainFinished := true }).session l = s.session l :=
        fun _ => rfl
      generalize (s.modRail r fun x => { x with timer := .stopped, drainFinished := true }) = m at *
      exact Pending.railTurn none [] [] (h.pendingAt (fun l q => .inr ⟨by rw [State.outstanding, hsession]; rfl, hclaims l q⟩)
        fun w q hw => .stands (hstands hw)) hsound
  · exact h

theorem standing_fallBelowWarn {s : State} (hs : SessionsSound s) (h : Standing s) : Standing (fallBelowWarn s) := by
  have hcross : Standing { s with supply := { s.supply with warnOut := .below } } := h.same rfl rfl
  have hsound : SessionsSound { s with supply := { s.supply with warnOut := .below } } := hs.beside rfl rfl
  unfold fallBelowWarn
  split
  · dsimp only
    split
    · exact standing_changeSupply _ hsound hcross
    · exact standing_changeSupply _ hsound hcross
    · exact hcross
    · exact hcross
  · exact h

theorem standing_fallBelowCrit {s : State} (hs : SessionsSound s) (h : Standing s) : Standing (fallBelowCrit s) := by
  have hcross : Standing { s with supply := { s.supply with critOut := .below } } := h.same rfl rfl
  have hsound : SessionsSound { s with supply := { s.supply with critOut := .below } } := hs.beside rfl rfl
  unfold fallBelowCrit
  split
  · dsimp only
    split
    · exact standing_changeSupply _ hsound hcross
    · exact standing_changeSupply _ hsound hcross
    · exact standing_changeSupply _ hsound hcross
    · exact hcross
  · exact h

theorem standing_riseAboveCritBand {s : State} (hs : SessionsSound s) (h : Standing s) : Standing (riseAboveCritBand s) := by
  have hcross : Standing { s with supply := { s.supply with critOut := .above } } := h.same rfl rfl
  have hsound : SessionsSound { s with supply := { s.supply with critOut := .above } } := hs.beside rfl rfl
  unfold riseAboveCritBand
  split
  · dsimp only
    split
    · exact standing_changeSupply _ hsound hcross
    · exact hcross
    · exact hcross
    · exact hcross
  · exact h

theorem standing_riseAboveWarnBand {s : State} (hs : SessionsSound s) (h : Standing s) : Standing (riseAboveWarnBand s) := by
  have hcross : Standing { s with supply := { s.supply with warnOut := .above } } := h.same rfl rfl
  have hsound : SessionsSound { s with supply := { s.supply with warnOut := .above } } := hs.beside rfl rfl
  unfold riseAboveWarnBand
  split
  · dsimp only
    split
    · exact standing_changeSupply _ hsound hcross
    · exact standing_changeSupply _ hsound hcross
    · exact hcross
    · exact hcross
  · exact h

theorem standing_linkReset {s : State} (l : Link) (hs : SessionsSound s) (h : Standing s) : Standing (linkReset l s) := by
  unfold linkReset
  split
  · exact h
  · exact standing_teardown l nofun (hs.beside rfl rfl) (h.same rfl rfl)

/-- A warm reset leaves no completion. -/
theorem standing_warmReset {s : State} (v : Nat) (h : Standing s) : Standing (warmReset v s) := by
  unfold warmReset
  split
  · exact h.same rfl rfl
  · have hsessions := session_forgetMasters s
    generalize s.forgetMasters = a at hsessions
    have hkept := (onlyRails_restartRails a).session
    generalize a.restartRails = b at hkept
    have hrest := restartSupply_rest v b
    generalize restartSupply v b = c at hrest
    refine standing_of_none fun l r => ?_
    have hnone : c.outstanding l r = none := by
      have hc : c.session l = (s.session l).tornDown .detached := by
        rw [← hsessions, ← hkept, hrest]
        rfl
      rw [State.outstanding, hc]
      exact get_replicate ..
    unfold railTurn
    rw [State.outstanding, session_conclude]
    exact Session.foldl_takes_table_none _ _ _ _ (by rw [(onlyRails_railEvent ⟨c, []⟩).session]; exact hnone)

theorem standing_powerOnReset (s : State) : Standing (powerOnReset s) :=
  standing_of_none (idle_powerOnReset s).outstanding

theorem standing_tick {s : State} (h : Standing s) : Standing { s.tickTimers with timestamp := s.timestamp + 1 } := by
  have hsession := s.session_tickTimers
  have hrail := s.rail_tickTimers
  generalize s.tickTimers = t at hsession hrail
  refine Standing.same (s := t) ?_ rfl rfl
  refine h.kept (fun l r => .inr ⟨?_, State.claim_of_claims_eq (by rw [hrail]) l⟩) fun w r hw => ?_
  · rw [State.outstanding, hsession]
    rfl
  · rw [hrail]
    exact WaitKind.standsAt_of_same hw rfl rfl rfl

/-- Before COMMIT no completion is outstanding, and its announcement sets none up. -/
theorem standing_commitAnswer {s : State} (v : Nat) (hs : Attended s) (hu : s.lifecycle = .uncommitted) :
    Standing (commitAnswer v s).st := by
  rcases commitAnswer_cases v s with he | ⟨-, he⟩
  · rw [he]
    exact hs.standing
  · rw [he, commitTaken_deliver]
    have hsession := session_deliver (s.committedAt v) none (s.commitLog v)
    generalize deliver none (s.commitLog v) (s.committedAt v) = t at hsession
    refine standing_of_none fun l r => ?_
    rw [State.outstanding, hsession]
    exact Session.foldl_takes_table_none _ _ _ _ (hs.idle hu l r)

theorem standing_fetchAnswer {s : State} (l : Link) (h : Standing s) : Standing (fetchAnswer l s).st := by
  unfold fetchAnswer
  dsimp only
  split
  · dsimp only
    exact h.modSession l _ rfl
  · dsimp only
    exact h.modSession l _ rfl

theorem standing_attachAnswer {s : State} {l : Link} (f : Frame) (h : Standing s) : Standing (attachAnswer l f s).st := by
  unfold attachAnswer
  dsimp only
  split
  · exact h
  · dsimp only
    exact h.modSession l _ rfl

theorem standing_detachAnswer {s : State} (l : Link) (hs : SessionsSound s) (h : Standing s) :
    Standing (detachAnswer l s).st := by
  unfold detachAnswer
  split
  · dsimp only
    exact standing_teardown l nofun hs h
  · dsimp only
    exact h.modSession l _ rfl

theorem standing_writeRailAnswer {s : State} (f : Frame) (h : Standing s) : Standing (writeRailAnswer f s).st := by
  unfold writeRailAnswer
  split
  · split
    · exact h.same rfl rfl
    · exact h
  · exact h

theorem standing_readRailAnswer {s : State} (f : Frame) (h : Standing s) : Standing (readRailAnswer f s).st := by
  unfold readRailAnswer
  split <;> exact h

theorem standing_queryRailAnswer {s : State} (l : Link) (f : Frame) (h : Standing s) : Standing (queryRailAnswer l f s).st := by
  unfold queryRailAnswer
  split <;> exact h

theorem standing_linkResetRelease {s : State} (l : Link) (h : Standing s) : Standing (linkResetRelease l s) := by
  unfold linkResetRelease
  split
  · exact h
  · exact h.same rfl rfl

theorem standing_csnFall {s : State} (l : Link) (h : Standing s) : Standing (csnFall l s) := by
  unfold csnFall
  split
  · exact h
  · exact h.same rfl rfl

theorem standing_csnRise {s : State} (l : Link) (h : Standing s) : Standing (csnRise l s) := by
  unfold csnRise
  split
  · exact h
  · exact h.same rfl rfl

theorem standing_responseEnd {s : State} (l : Link) (h : Standing s) : Standing (responseEnd l s) := by
  unfold responseEnd
  split
  · exact h.same rfl rfl
  · exact h

/-- From a coherent state, every command leaves the completions standing. -/
theorem exec_standing {s : State} (c : Instr) (hs : Coherent s) : ∃ t, exec c s = .next t ∧ Standing t := by
  have ha := hs.attended
  have hsound := ha.sessions
  have h := ha.standing
  have hsense (v : Nat) : Standing { s with sense := v } := h.same rfl rfl
  have hsense' (v : Nat) : SessionsSound { s with sense := v } := hsound.beside rfl rfl
  cases c with
  | attach l f => exact ⟨_, rfl, standing_serve ha fun t ht _ _ => standing_attachAnswer f ht.standing⟩
  | detach l f => exact ⟨_, rfl, standing_serve ha fun t ht _ _ => standing_detachAnswer l ht.sessions ht.standing⟩
  | renew l f => exact ⟨_, rfl, standing_serve ha fun t ht _ _ => ht.standing⟩
  | claim l f =>
    exact ⟨_, rfl, standing_serve ha fun t ht hn _ => standing_claimAnswer f ht (attached_of_sessionRefusal hn nofun nofun)⟩
  | releaseWithoutWait l f =>
    exact ⟨_, rfl, standing_serve ha fun t ht hn hl =>
      standing_releaseAnswer f ht (attached_of_sessionRefusal hn nofun nofun) (committed_of_lifecycleRefusal (.inr (.inl rfl)) hl)⟩
  | releaseWithWait l f =>
    exact ⟨_, rfl, standing_serve ha fun t ht hn hl =>
      standing_releaseAnswer f ht (attached_of_sessionRefusal hn nofun nofun) (committed_of_lifecycleRefusal (.inr (.inl rfl)) hl)⟩
  | clearFault l f =>
    exact ⟨_, rfl, standing_serve ha fun t ht _ hl =>
      standing_clearFaultAnswer l f ht (committed_of_lifecycleRefusal (.inr (.inr rfl)) hl)⟩
  | fetchEvent l f => exact ⟨_, rfl, standing_serve ha fun t ht _ _ => standing_fetchAnswer l ht.standing⟩
  | queryRail l f => exact ⟨_, rfl, standing_serve ha fun t ht _ _ => standing_queryRailAnswer l f ht.standing⟩
  | queryPart l f => exact ⟨_, rfl, standing_serve ha fun t ht _ _ => ht.standing⟩
  | writeRail l f => exact ⟨_, rfl, standing_serve ha fun t ht _ _ => standing_writeRailAnswer f ht.standing⟩
  | writePart l f => exact ⟨_, rfl, standing_serve ha fun t ht _ _ => ht.standing.same rfl rfl⟩
  | readRail l f => exact ⟨_, rfl, standing_serve ha fun t ht _ _ => standing_readRailAnswer f ht.standing⟩
  | readPart l f => exact ⟨_, rfl, standing_serve ha fun t ht _ _ => ht.standing⟩
  | commit l f v =>
    exact ⟨_, rfl, standing_serve (ha.sense v) fun t ht _ hl =>
      standing_commitAnswer v ht (uncommitted_of_lifecycleRefusal (.inr (.inr rfl)) hl)⟩
  | frameDiscard l => exact ⟨_, rfl, standing_csnRise l h⟩
  | pgChangeTaken r level => exact ⟨_, rfl, standing_pgChange r level hsound h⟩
  | rampTimeExpiry r => exact ⟨_, rfl, standing_rampExpiry r hsound h⟩
  | slewTimeExpiry r => exact ⟨_, rfl, standing_slewExpiry r hsound h⟩
  | drainTimeExpiry r => exact ⟨_, rfl, standing_drainExpiry r hsound h⟩
  | deferredOff r => exact ⟨s, congrArg _ (deferredOffTaken_of_coherent hs r), h⟩
  | startGrant r => exact ⟨s, congrArg _ (grantHead_of_coherent hs r .start), h⟩
  | raiseGrant r => exact ⟨s, congrArg _ (grantHead_of_coherent hs r .raise), h⟩
  | holdoffExpiry =>
    refine ⟨_, rfl, ?_⟩
    unfold holdoffExpiry
    split
    · exact standing_changeSupply _ hsound h
    · exact h
  | leaseExpiry l =>
    refine ⟨_, rfl, ?_⟩
    split
    · exact standing_teardown l nofun hsound h
    · exact h
  | fallBelowWarn v => exact ⟨_, rfl, standing_fallBelowWarn (hsense' v) (hsense v)⟩
  | fallBelowCrit v => exact ⟨_, rfl, standing_fallBelowCrit (hsense' v) (hsense v)⟩
  | riseAboveCritBand v => exact ⟨_, rfl, standing_riseAboveCritBand (hsense' v) (hsense v)⟩
  | riseAboveWarnBand v => exact ⟨_, rfl, standing_riseAboveWarnBand (hsense' v) (hsense v)⟩
  | linkReset l => exact ⟨_, rfl, standing_linkReset l hsound h⟩
  | linkResetRelease l => exact ⟨_, rfl, standing_linkResetRelease l h⟩
  | warmReset v => exact ⟨_, rfl, standing_warmReset v h⟩
  | warmResetRelease => exact ⟨_, rfl, h.same rfl rfl⟩
  | powerOnReset => exact ⟨_, rfl, standing_powerOnReset s⟩
  | timestampTick => exact ⟨_, rfl, standing_tick h⟩
  | csnFall l => exact ⟨_, rfl, standing_csnFall l h⟩
  | responseEnd l => exact ⟨_, rfl, standing_responseEnd l h⟩
  | csnRise l => exact ⟨_, rfl, standing_csnRise l h⟩

theorem outstandingFits_of_exec {c : Instr} {s t : State} (hs : Coherent s) (h : exec c s = .next t) : OutstandingFits t := by
  obtain ⟨u, hu, hstanding⟩ := exec_standing c hs
  cases hu.symm.trans h
  exact (outstandingFits_iff t).mpr hstanding

end Sys2Proof.Machine
end

/-! ### A coherent part after every command -/

section
namespace Sys2Proof.Machine

/-! #### The table (R1) -/

/-- Every record carries as many costs as its level count says (R165). -/
def CostsCounted (s : State) : Prop := ∀ r : Rail, (s.record r).costs.length = (s.record r).levelCount.toNat

theorem CostsCounted.of_records {s t : State} (hs : CostsCounted s) (h : t.records = s.records) : CostsCounted t := fun r => by
  rw [State.record_of_records_eq h]
  exact hs r

theorem Act.costs {s t : State} (h : Act s t) (hs : CostsCounted s) : CostsCounted t := by
  cases h with
  | move _ hm => exact hs.of_records hm.onlyRails.records
  | beside _ he => exact hs.of_records (by rw [he])
  | record r x _ hx =>
    intro q
    rw [State.record_setRecord]
    split
    · exact hx
    · exact hs q
  | part p _ => exact hs
  | claim l r v _ _ => exact hs
  | pg r level => exact hs
  | on r _ => exact hs.of_records (onlyRails_enterOn s r).records
  | finish r _ => exact hs
  | fault r k _ => exact hs.of_records (onlyRails_enterFault s r k).records
  | clear r _ => exact hs.of_records (onlyRails_moveRail s r _).records
  | suspend b => exact hs.of_records (onlyRails_setSuspended s b).records
  | sides w u => exact hs
  | supply st timer => exact hs
  | evaluate v _ => exact hs.of_records (by rw [evaluateSupply_eq])
  | restart => exact hs.of_records (onlyRails_restartRails s).records
  | commit v _ _ => exact hs.of_records (by rw [evaluateSupply_activated]; rfl)
  | tick => exact hs.of_records (by rw [State.tickTimers_eq])
  | powerOn =>
    refine CostsCounted.of_records (s := State.reset) (fun r => ?_) (by rw [powerOnReset_eq])
    rw [State.record_reset]
    rfl

theorem powerOnReset_uncommitted (s : State) : (powerOnReset s).lifecycle = .uncommitted := by
  rw [powerOnReset_eq]
  rfl

theorem tableSound_of_exec {c : Instr} {s t : State} (hs : Coherent s) (h : exec c s = .next t) : TableSound t := by
  refine ⟨(acts_of_exec h).keep (fun _ _ ha => ha.costs) hs.table.costs, fun ht => ?_⟩
  cases hu : s.lifecycle with
  | committed =>
    have hkept (hc : c ≠ .powerOnReset) : t.records = s.records ∧ t.part = s.part := by
      obtain ⟨hrecords, hpart, -⟩ := tableIsWrittenByWritesAlone c s t h
      refine ⟨hrecords.elim id ?_, hpart.elim id ?_⟩
      · rintro (⟨hn, -⟩ | he)
        · exact nomatch hu.symm.trans hn
        · exact absurd he hc
      · rintro (⟨hn, -⟩ | he)
        · exact nomatch hu.symm.trans hn
        · exact absurd he hc
    by_cases hc : c = .powerOnReset
    · subst hc
      have h : Host.Outcome.next (powerOnReset s) = .next t := h
      cases h
      exact nomatch (powerOnReset_uncommitted s).symm.trans ht
    · obtain ⟨hrecords, hpart⟩ := hkept hc
      rw [commitFault_of_table_eq hrecords hpart]
      exact hs.table.passes hu
  | uncommitted =>
    obtain ⟨a, v, hsa, hnone, hat⟩ := committed_of_exec h hu ht
    rw [← hnone]
    refine commitFault_of_table_eq ?_ ?_
    · rw [hat, commitTaken_beside]
      rfl
    · rw [hat, commitTaken_beside]
      rfl

/-! #### The rails -/

theorem steady_tick {s t : State} (hs : Steady s) (hrail : ∀ r, t.rail r = { s.rail r with timer := (s.rail r).timer.tick })
    (hrecords : t.records = s.records) (hshape : RecordsShaped t) (hholds : HoldsExact t) : Steady t := by
  have hrecord := State.record_of_records_eq hrecords
  have hparents (r : Rail) : t.parentsOf r = s.parentsOf r := by
    unfold State.parentsOf
    rw [hrecord]
  refine ⟨⟨⟨hs.table.of_records hrecords, hshape, fun r => ?_, fun r => ?_, hholds⟩, fun r hr p hp => ?_⟩, fun r => ⟨?_, ?_⟩⟩
  · rw [hrecord, hrail]
    exact ⟨(hs.sized r).held, (hs.sized r).level, (hs.sized r).target, (hs.sized r).origin, (hs.sized r).claims,
      (hs.sized r).absent, (hs.sized r).powered⟩
  · rw [hrail]
    exact ⟨(hs.acted r).off, (hs.acted r).waiting, (hs.acted r).ramping, (hs.acted r).on⟩
  · rw [hrail] at hr ⊢
    rw [hparents] at hp
    exact hs.up r hr p hp
  · rw [State.targetFor_congr (hrecord r) (by rw [hrail]) (by rw [hrail]) (by rw [hrail]), hrail]
    exact (hs.aimed r).target
  · intro hf
    rw [hrail] at hf
    obtain ⟨c, hc, hd⟩ := (s.heldByDraining_iff r).mp ((hs.aimed r).finished hf)
    refine (t.heldByDraining_iff r).mpr ⟨c, ?_, ?_⟩
    · rwa [hrail]
    · rwa [hrail]

/-- The record of a rail just committed is in OFF, and nothing is asked of it. -/
structure Fresh (x : RailRuntime) : Prop where
  state : x.state = .off
  level : x.level = 0
  target : x.target = 0
  origin : x.slewOrigin = none
  held : x.held = 0
  finished : x.drainFinished = false
  claims : x.claims = .replicate 4 0
  holdSet : x.holdSet = .replicate 16 false

theorem State.fresh_committedRail (s : State) (v : Nat) (r : Rail) : Fresh (s.committedRail v r) :=
  ⟨rfl, rfl, rfl, rfl, rfl, rfl, rfl, rfl⟩

section
variable {x : RailRuntime} (h : Fresh x)
include h

theorem Fresh.claim (l : Link) : x.claims.get l = 0 := by
  rw [h.claims]
  exact get_replicate ..

theorem Fresh.hold (c : Rail) : x.holdSet.get c = false := by
  rw [h.holdSet]
  exact get_replicate ..

theorem Fresh.sized (rec : RailRecord) : RailSized rec x where
  held := by
    unfold RailRuntime.dueBudget
    rw [h.state, h.held]
  level := by rw [h.level]; exact Nat.zero_le _
  target := by rw [h.target]; exact Nat.zero_le _
  origin := by rw [h.origin]; exact Nat.zero_le _
  claims l := by rw [h.claim]; exact Nat.zero_le _
  absent _ := ⟨h.state, h.target, h.claim⟩
  powered hp := by rw [h.state] at hp; rcases hp with hp | hp <;> cases hp

theorem Fresh.acted : Acted x := by
  constructor
  all_goals
    rw [h.state]
  · exact fun _ => h.target
  all_goals nofun

theorem Fresh.demandedTarget : x.demandedTarget = 0 := by
  have hdemand : x.claimDemand = 0 := by
    unfold RailRuntime.claimDemand
    rw [h.claims]
    rfl
  have heffective : x.effectiveDemand = 0 := by
    unfold RailRuntime.effectiveDemand
    rw [hdemand, ite_self]
  have hheld : x.isHeld = false := List.any_eq_false.mpr fun c _ => by
    rw [h.hold]
    nofun
  unfold RailRuntime.demandedTarget
  rw [heffective, hheld]
  rfl

end

/-- Of a part just committed, every rail is in OFF with nothing asked of it (R49, R172). -/
theorem steady_committedAt {s : State} (v : Nat) (htable : GoodTable s) : Steady (s.committedAt v) := by
  have hfresh (r : Rail) : Fresh ((s.committedAt v).rail r) := by
    rw [State.rail_committedAt]
    exact s.fresh_committedRail v r
  have hshape : RecordsShaped (s.committedAt v) := fun r => by
    rw [State.rail_committedAt]
    exact recordShape_powerOn.inputs _ _ _ _ _
  have htable' : GoodTable (s.committedAt v) := htable.of_records rfl
  generalize s.committedAt v = t at hfresh hshape htable'
  refine ⟨⟨⟨htable', hshape, fun r => (hfresh r).sized _, fun r => (hfresh r).acted, fun p c => ?_⟩, .of_none fun r => ?_⟩,
    fun r => ⟨?_, ?_⟩⟩
  · rw [(hfresh p).hold, (hfresh c).state]
    exact (Bool.and_false _).symm
  · rw [(hfresh r).state]
    rfl
  · unfold State.targetFor
    rw [(hfresh r).target, (hfresh r).demandedTarget, ite_self]
  · rw [(hfresh r).finished]
    nofun

theorem steady_of_exec {c : Instr} {s t : State} (hs : Coherent s) (h : exec c s = .next t) (ht : t.lifecycle = .committed)
    (hshape : RecordsShaped t) (hholds : HoldsExact t) : Steady t := by
  cases hu : s.lifecycle with
  | committed =>
    have hsteady := hs.attended.steady hu
    rcases course_of_exec h with hcourse | ⟨-, rfl⟩ | ⟨r, k, rfl⟩
    · cases hcourse with
      | quiet hq =>
        cases hq with
        | light hl => exact ⟨hsteady.toCalm.light hl, fun r => (hsteady.aimed r).light hl⟩
        | table hn => exact nomatch hu.symm.trans hn
        | powerOn hb =>
          have hn : t.lifecycle = .uncommitted := by
            rw [hb]
            exact powerOnReset_uncommitted s
          exact nomatch hn.symm.trans ht
      | event a m reserve lead log hl ho hb =>
        exact (steady_railTurn (ho.calm (hsteady.toCalm.light hl) fun r => (hsteady.aimed r).light hl) reserve lead log).beside hb
      | fault a r k hl hr hb => exact (steady_fail (hsteady.toCalm.light hl) k hr).beside hb
    · have hrail := s.rail_tickTimers
      have hrecords : s.tickTimers.records = s.records := by rw [State.tickTimers_eq]
      generalize s.tickTimers = u at hrail hrecords hshape hholds
      exact steady_tick (t := { u with timestamp := s.timestamp + 1 }) hsteady hrail hrecords hshape hholds
    · rw [grantHead_of_coherent hs r k]
      exact hsteady
  | uncommitted =>
    obtain ⟨a, v, hsa, hnone, hat⟩ := committed_of_exec h hu ht
    have hcosts : ∀ r, (a.record r).costs.length = (a.record r).levelCount.toNat :=
      CostsCounted.of_records (s := s) hs.table.costs (by rw [hsa])
    refine Steady.beside ?_ hat
    exact (steady_committedAt v (goodTable_of_commitFault hcosts hnone)).beside (by rw [commitTaken_beside]; rfl)

theorem supplySound_of_exec {c : Instr} {s t : State} (hs : Coherent s) (h : exec c s = .next t)
    (ht : t.lifecycle = .committed) : SupplySound t := by
  cases hu : s.lifecycle with
  | committed =>
    have hsteady := hs.attended.steady hu
    rcases course_of_exec h with hcourse | ⟨-, rfl⟩ | ⟨r, k, rfl⟩
    · cases hcourse with
      | quiet hq =>
        cases hq with
        | light hl => exact hs.supply.light hl
        | table hn => exact nomatch hu.symm.trans hn
        | powerOn hb =>
          have hn : t.lifecycle = .uncommitted := by
            rw [hb]
            exact powerOnReset_uncommitted s
          exact nomatch hn.symm.trans ht
      | event a m reserve lead log hl ho hb =>
        have hfound := ho.supplySound (hs.supply.light hl) (hsteady.toCalm.light hl) (hl.lifecycle.trans hu)
        exact (supplySound_railTurn hfound reserve lead log).beside hb
      | fault a r k hl hr hb => exact (supplySound_fail (hs.supply.light hl) r k).beside hb
    · exact supplySound_tick hs.supply
    · rw [grantHead_of_coherent hs r k]
      exact hs.supply
  | uncommitted =>
    obtain ⟨a, v, -, -, hat⟩ := committed_of_exec h hu ht
    exact ((supplySound_committedAt a v).beside (by rw [commitTaken_beside]; rfl)).beside hat

/-! #### Every step -/

theorem coherent_of_exec {c : Instr} {s t : State} (hs : Coherent s) (h : exec c s = .next t) : Coherent t := by
  have hstep := step_of_exec h
  have hidle := idle_of_exec hs.idle h
  have htable := tableSound_of_exec hs h
  have hsessions := stepsKeepSessionsSound { s with pending := c :: s.pending } t hs.sessions hstep
  cases ht : t.lifecycle with
  | uncommitted => exact ((idleBeforeCommit_iff t).mp hidle ht).coherent ht htable.costs hsessions
  | committed =>
    have hshape := stepsKeepRecordsShaped { s with pending := c :: s.pending } t hs.shape hstep
    have hholds := (stepsKeepHoldsExact { s with pending := c :: s.pending } t hs.holds hs.idle hstep).1
    have hsteady := steady_of_exec hs h ht hshape hholds
    have hqueue := queueExact_of_exec hs h
    exact
      { table := htable
        lines := linesFollow_of_exec hs h
        shape := hshape
        held := fun r => (hsteady.sized r).held
        levels := fun r =>
          ⟨(hsteady.sized r).level, (hsteady.sized r).target, (hsteady.sized r).origin, (hsteady.sized r).claims,
            fun hd => ⟨((hsteady.sized r).absent hd).1, ((hsteady.sized r).absent hd).2.2⟩⟩
        holds := hholds
        parents := hsteady.up
        settled :=
          { target := fun r => (hsteady.aimed r).target
            off := fun r => (hsteady.acted r).off
            waiting := fun r => (hsteady.acted r).waiting
            ramping := fun r => (hsteady.acted r).ramping
            on := fun r => (hsteady.acted r).on
            finished := fun r => (hsteady.aimed r).finished
            level := fun r => (hsteady.sized r).powered }
        balanced := stepsKeepBudgetBalanced { s with pending := c :: s.pending } t hs.balanced hstep
        within := stepsKeepBudgetWithin { s with pending := c :: s.pending } t hs.within hstep
        kept := hqueue.toQueueKept
        supply := supplySound_of_exec hs h ht
        sessions := hsessions
        outstanding := outstandingFits_of_exec hs h
        idle := hidle
        head := hqueue.head }

theorem Coherent.withPending {s : State} (hs : Coherent s) (rest : List Instr) : Coherent { s with pending := rest } where
  table := ⟨hs.table.costs, fun hc => (commitFault_of_table_eq (s := s) rfl rfl).trans (hs.table.passes hc)⟩
  lines := hs.lines
  shape := hs.shape
  held := hs.held
  levels := hs.levels
  holds := hs.holds
  parents := hs.parents
  settled :=
    ⟨hs.settled.target, hs.settled.off, hs.settled.waiting, hs.settled.ramping, hs.settled.on, hs.settled.finished,
      hs.settled.level⟩
  balanced := hs.balanced
  within := hs.within
  kept := ⟨hs.kept.entry, hs.kept.once, hs.kept.every, hs.kept.order⟩
  supply :=
    ⟨hs.supply.active, hs.supply.limit, hs.supply.holdoff, hs.supply.flagged, hs.supply.set, hs.supply.clear,
      hs.supply.collapse⟩
  sessions := hs.sessions
  outstanding := hs.outstanding
  idle := hs.idle
  head := hs.head

/-- Settles O5: the rules of the single steps, with the rails steady again at the end of every event and the completions
standing. -/
theorem stepsKeepCoherence : Obligations.StepsKeepCoherence := by
  intro s t hs h
  rcases step_cases h with rfl | ⟨c, rest, -, hexec⟩
  · exact hs
  · exact coherent_of_exec (s := { s with pending := rest }) (hs.withPending rest) hexec

end Sys2Proof.Machine
end

/-! ### Rails that are not up, through the grants of an event (R28, R84, R85) -/

section
namespace Sys2Proof.Machine

/-! #### What a settling leaves of the rails it does not reach -/

theorem log_examineTarget (r : Rail) (e : Event) : (examineTarget r e).log = e.log := by
  unfold examineTarget
  dsimp only
  split
  · rfl
  · split <;> rfl

theorem log_actOnTarget (r : Rail) (e : Event) : (actOnTarget r e).log = e.log := by
  unfold actOnTarget
  dsimp only
  split
  · split <;> rfl
  · split <;> rfl
  · split <;> rfl
  · exact log_examineTarget r e
  · rfl
  · rfl
  · rfl

theorem log_takeTarget (r : Rail) (e : Event) : (takeTarget r e).log = e.log ∨ (takeTarget r e).log = e.log ++ [.targetRose r] := by
  unfold takeTarget
  dsimp only
  split
  · exact .inl rfl
  · rw [log_actOnTarget]
    split
    · exact .inr rfl
    · exact .inl rfl

theorem log_takeDeferredOff (r : Rail) (e : Event) :
    (takeDeferredOff r e).log = e.log ∨ (takeDeferredOff r e).log = e.log ++ [.enteredOff r] := by
  unfold takeDeferredOff
  dsimp only
  split
  · exact .inr rfl
  · exact .inl rfl

/-- The turn of a rail announces nothing of another. -/
theorem log_takeTurn (e : Event) (r : Rail) {a : Announcement} (ha : a ∈ (takeTurn e r).log) : a ∈ e.log ∨ a.rail? = some r := by
  have hgrown {log log' : List Announcement} {b : Announcement} (h : log' = log ∨ log' = log ++ [b]) (hb : b.rail? = some r)
      (ha : a ∈ log') : a ∈ log ∨ a.rail? = some r := by
    rcases h with h | h
    · exact .inl (h ▸ ha)
    · rw [h] at ha
      exact (List.mem_append.mp ha).imp_right fun h => by rw [List.mem_singleton.mp h, hb]
  rcases hgrown (log_takeDeferredOff r (takeTarget r e)) rfl ha with h | h
  · exact hgrown (log_takeTarget r e) rfl h
  · exact .inr h

/-- Rails outside a set that no change of a member leaves upward, and that have nothing to take, take nothing and have
nothing announced of them. -/
theorem foldl_takeTurn_outside {rs : List Rail} {e : Event} (hs : Calm e.st) {U : Rail → Prop}
    (hclosed : ∀ p r, U r → e.st.isParent p r = true → U p) (haimed : ∀ q, ¬ U q → Aimed e.st q) {q : Rail} (hq : ¬ U q) :
    (rs.foldl takeTurn e).st.rail q = e.st.rail q ∧ ∀ a ∈ (rs.foldl takeTurn e).log, a.rail? = some q → a ∈ e.log := by
  induction rs generalizing e with
  | nil => exact ⟨rfl, fun _ ha _ => ha⟩
  | cons a rs ih =>
    have hparent : ∀ p c, (takeTurn e a).st.isParent p c = e.st.isParent p c :=
      State.isParent_of_onlyRails (moves_takeTurn e a).onlyRails
    rw [List.foldl_cons]
    by_cases ha : U a
    · have hkept {x : Rail} (hx : ¬ U x) : x ≠ a ∧ e.st.isParent x a = false :=
        ⟨fun h => hx (h ▸ ha), Bool.eq_false_iff.mpr fun h => hx (hclosed x a ha h)⟩
      obtain ⟨hrail, hlog⟩ := ih (hs.takeTurn a) (fun p r hr hp => hclosed p r hr (by rwa [hparent] at hp)) fun x hx =>
        aimed_takeTurn_other hs (haimed x hx) (hkept hx).1 (hkept hx).2
      refine ⟨hrail.trans (rail_takeTurn hs (hkept hq).1 (hkept hq).2), fun b hb hbq => ?_⟩
      exact (log_takeTurn e a (hlog b hb hbq)).resolve_right fun h => (hkept hq).1 (Option.some.inj (hbq.symm.trans h))
    · rw [takeTurn_of_aimed (haimed a ha)]
      exact ih hs hclosed haimed

theorem settle_outside {e : Event} (hs : Calm e.st) {U : Rail → Prop}
    (hclosed : ∀ p r, U r → e.st.isParent p r = true → U p) (haimed : ∀ q, ¬ U q → Aimed e.st q) {q : Rail} (hq : ¬ U q) :
    (settle e).st.rail q = e.st.rail q ∧ ∀ a ∈ (settle e).log, a.rail? = some q → a ∈ e.log := by
  rw [settle_eq_foldl]
  exact foldl_takeTurn_outside hs hclosed haimed hq

theorem prefix_takeTurn (e : Event) (r : Rail) : e.log <+: (takeTurn e r).log := by
  have hgrown {log log' : List Announcement} {b : Announcement} (h : log' = log ∨ log' = log ++ [b]) : log <+: log' := by
    rcases h with rfl | rfl
    · exact List.prefix_rfl
    · exact List.prefix_append ..
  exact (hgrown (log_takeTarget r e)).trans (hgrown (log_takeDeferredOff r (takeTarget r e)))

theorem prefix_foldl_takeTurn (rs : List Rail) (e : Event) : e.log <+: (rs.foldl takeTurn e).log := by
  induction rs generalizing e with
  | nil => exact List.prefix_rfl
  | cons r rs ih => exact (prefix_takeTurn e r).trans (ih _)

theorem foldl_takeTurn_of_aimed {rs : List Rail} {e : Event} (h : ∀ q ∈ rs, Aimed e.st q) : rs.foldl takeTurn e = e := by
  induction rs with
  | nil => rfl
  | cons r rs ih =>
    rw [List.foldl_cons, takeTurn_of_aimed (h r List.mem_cons_self)]
    exact ih fun q hq => h q (List.mem_cons_of_mem r hq)

/-! #### One grant -/

theorem Becomes.rail_self {s t : State} {r : Rail} {y : RailRuntime} (hb : Becomes s t r y) (hs : HoldsExact s)
    (ht : HoldsExact t) (ho : OnlyRails s t) (hself : s.isParent r r = false) (hy : y.holdSet = (s.rail r).holdSet) :
    t.rail r = y := by
  have h := hb.self
  unfold SameButHolds at h
  rw [h, hb.holdSet_self hs ht ho hself, ← hy]

/-- The whole falls reach rails in SLEWING alone. -/
theorem rail_takeWholeFalls {before : State} {e : Event} (hs : Firm before e.st)
    (hbefore : ∀ r, RailSized (e.st.record r) (before.rail r)) {q : Rail} (hq : (e.st.rail q).state ≠ .slewing) :
    (takeWholeFalls before e).st.rail q = e.st.rail q := by
  have hone {s : State} (hs : Firm before s) (hb : ∀ r, RailSized (s.record r) (before.rail r)) (r : Rail)
      (hq : (s.rail q).state ≠ .slewing) : (takeWholeFall before s r).rail q = s.rail q := by
    have hfirm := hs.takeWholeFall hb r
    have ho := onlyRails_takeWholeFall before s r
    revert hfirm ho
    unfold takeWholeFall
    dsimp only
    split
    · next h =>
      intro hfirm ho
      have hqr : q ≠ r := fun he => hq (he ▸ h.2.1)
      exact (becomes_wholeFall s r _).rail_eq_of_holding hs.holds hfirm.holds ho (by rw [h.2.1]; rfl) hqr
    · exact fun _ _ => rfl
  have hfold : ∀ (rs : List Rail) (s : State), Firm before s → (∀ r, RailSized (s.record r) (before.rail r)) →
      (s.rail q).state ≠ .slewing → (rs.foldl (takeWholeFall before) s).rail q = s.rail q := by
    intro rs
    induction rs with
    | nil => exact fun _ _ _ _ => rfl
    | cons r rs ih =>
      intro s h hb hq
      have hfirst := hone h hb r hq
      rw [List.foldl_cons, ih _ (h.takeWholeFall hb r) (fun x => by
        rw [(onlyRails_takeWholeFall before s r).record]
        exact hb x) (by rwa [hfirst]), hfirst]
  exact hfold allRails e.st hs hbefore hq

theorem mem_of_mem_byRail {log : List Announcement} {a : Announcement} (h : a ∈ byRail log) : a ∈ log := by
  obtain ⟨r, -, h⟩ := List.mem_flatMap.mp h
  exact (List.mem_filter.mp h).1

/-- What a grant of `n` leaves of a rail that waits: in RAMPING, or in FAULT where it finds BACKFEED. -/
inductive GrantedAt (s : State) (n : Nat) (r : Rail) (x : RailRuntime) : Prop where
  | ramping : ¬(s.monitored r = true ∧ (s.rail r).pg = .high) →
      x = ({ s.rail r with held := (s.rail r).held + n } : RailRuntime).toRamping r (s.record r).rampTime.toNat →
      GrantedAt s n r x
  | backfeed : s.monitored r = true → (s.rail r).pg = .high → x = (s.rail r).toFault r .backfeed → GrantedAt s n r x

/-- A START that finds BACKFEED, before the rails take it: what it leaves of the rails that are not up. -/
structure BackfedAt (before s : State) (r : Rail) (a : State) : Prop where
  calm : Calm a
  since : Since before a
  only : OnlyRails s a
  becomes : Becomes s a r ((s.rail r).toFault r .backfeed)
  self : a.rail r = (s.rail r).toFault r .backfeed
  other : ∀ q, q ≠ r → (s.rail q).state.up = false → a.rail q = s.rail q
  aimed : ∀ q, (a.rail q).state.up = false → Aimed a q

theorem Firm.backfed {before s : State} (hs : Firm before s) {r : Rail} {n : Nat} (hreq : s.requestOf r = some (.start, n))
    (hfits : s.fits n = true) (hmon : s.monitored r = true) (hpg : (s.rail r).pg = .high) :
    BackfedAt before s r ((s.takeBudget r n).enterFault r .backfeed) := by
  obtain ⟨hcalm, hsince⟩ := hs.backfeed hreq hfits hmon hpg
  have ho := (Move.backfeed s r n hreq hfits hmon hpg).onlyRails
  have hb := becomes_backfeed s r n .backfeed
  have hself := hs.table.acyclic.not_self r
  obtain ⟨hready, -⟩ := (s.requestOf_eq_start_iff r n).mp hreq
  have hparents := ((s.ready_iff r).mp hready).2.1
  generalize (s.takeBudget r n).enterFault r .backfeed = a at hcalm hsince ho hb
  have hnot {q : Rail} (hq : (s.rail q).state.up = false) : s.isParent q r = false :=
    Bool.eq_false_iff.mpr fun h => by
      rw [(RailState.up_iff _).mpr (hparents q ((s.mem_parentsOf_iff q r).mpr h))] at hq
      cases hq
  have hrail : a.rail r = (s.rail r).toFault r .backfeed := hb.rail_self hs.holds hcalm.holds ho hself rfl
  refine ⟨hcalm, hsince, ho, hb, hrail, fun q hq hup => hb.rail_eq hs.holds hcalm.holds ho hq (hnot hup), fun q hup => ?_⟩
  by_cases hq : q = r
  · subst hq
    refine ⟨?_, fun hf => ?_⟩
    · rw [hb.targetFor_self hs.holds hcalm.holds ho hself rfl rfl, hrail]
      exact (hs.aimed q).target
    · rw [hrail] at hf
      cases hf
  · rw [(hb.other hq).state] at hup
    exact (hs.aimed q).becomes hb hs.holds hcalm.holds ho hq (hnot hup)

/-- A rail that is not up, and what is announced of it, at one grant. -/
theorem low_handGrant {before : State} {e : Event} (hs : Firm before e.st)
    (hbefore : ∀ r, RailSized (e.st.record r) (before.rail r)) {r : Rail} {k : GrantKind} {n : Nat}
    (hreq : e.st.requestOf r = some (k, n)) (hfits : e.st.fits n = true) {q : Rail} (hq : (e.st.rail q).state.up = false) :
    ((handGrant before r k n e).st.rail q = e.st.rail q
        ∧ ∀ a ∈ (handGrant before r k n e).log, a.rail? = some q → a ∈ e.log)
      ∨ q = r ∧ (e.st.rail q).state = .waiting ∧ GrantedAt e.st n q ((handGrant before r k n e).st.rail q)
        ∧ ∀ a ∈ (handGrant before r k n e).log, a.rail? = some q →
          a ∈ e.log ∨ a = .enteredFault q .backfeed ∧ ((handGrant before r k n e).st.rail q).state = .fault := by
  cases k with
  | raise =>
    have hfirm := hs.raise hreq hfits
    have hon := State.on_of_raise hreq
    have hqr : q ≠ r := by
      rintro rfl
      rw [hon] at hq
      cases hq
    rw [handGrant_raise]
    exact .inl ⟨(becomes_raise e.st r n).rail_eq_of_holding hs.holds hfirm.holds (Move.raise e.st r n hreq hfits).onlyRails
      (by rw [hon]; rfl) hqr, fun _ ha _ => ha⟩
  | start =>
    have hw := State.waiting_of_start hreq
    by_cases h : e.st.monitored r = true ∧ (e.st.rail r).pg = .high
    · obtain ⟨hmon, hpg⟩ := h
      have hfed := hs.backfed hreq hfits hmon hpg
      rw [handGrant_backfeed hmon hpg fun c hc => hs.toCalm.child_of_start hreq hc]
      generalize (e.st.takeBudget r n).enterFault r .backfeed = a at hfed
      have hrecord (x : Rail) := (moves_settleAfter (⟨a, e.log ++ [Announcement.enteredFault r .backfeed]⟩ : Event)).onlyRails.record x
      obtain ⟨hcalm', haimed'⟩ := settle_aimed (e := ⟨a, []⟩) hfed.calm
      have hfirm : Firm before (settleAfter ⟨a, e.log ++ [.enteredFault r .backfeed]⟩).st :=
        ⟨hcalm', haimed', hfed.since.settle (e := ⟨a, []⟩) hfed.calm⟩
      have hupa : (a.rail q).state.up = false := by
        by_cases hqr : q = r
        · rw [hqr, hfed.self]
          rfl
        · rwa [hfed.other q hqr hq]
      obtain ⟨hrail, hlog⟩ := settle_outside (e := ⟨a, []⟩) hfed.calm (U := fun x => (a.rail x).state.up = true)
        (fun p x hx hp => hfed.calm.up x (RailState.running_of_up hx) p ((a.mem_parentsOf_iff p x).mpr hp))
        (fun x hx => hfed.aimed x (Bool.eq_false_iff.mpr hx)) (q := q) (Bool.eq_false_iff.mp hupa)
      have hfall := rail_takeWholeFalls hfirm (fun x => by rw [hrecord, hfed.only.record]; exact hbefore x) (q := q) (by
        rw [show (settleAfter ⟨a, e.log ++ [.enteredFault r .backfeed]⟩).st.rail q = a.rail q from hrail]
        intro hslew
        rw [hslew] at hupa
        cases hupa)
      have hend := hfall.trans hrail
      have hsaid {b : Announcement} (hb : b ∈ (takeWholeFalls before (settleAfter ⟨a, e.log ++ [.enteredFault r .backfeed]⟩)).log)
          (hbq : b.rail? = some q) : b ∈ e.log ∨ b = .enteredFault r .backfeed := by
        have hb : b ∈ (e.log ++ [.enteredFault r .backfeed]) ++ byRail (settle ⟨a, []⟩).log := hb
        rcases List.mem_append.mp hb with h | h
        · exact (List.mem_append.mp h).imp_right List.mem_singleton.mp
        · exact absurd (hlog b (mem_of_mem_byRail h) hbq) List.not_mem_nil
      by_cases hqr : q = r
      · subst hqr
        rw [hfed.self] at hend
        refine .inr ⟨rfl, hw, .backfeed hmon hpg hend, fun b hb hbq => (hsaid hb hbq).imp_right fun h => ⟨h, ?_⟩⟩
        rw [hend]
        rfl
      · rw [hfed.other q hqr hq] at hend
        exact .inl ⟨hend, fun b hb hbq => (hsaid hb hbq).resolve_right fun h => hqr (Option.some.inj (hbq.symm.trans (h ▸ rfl)))⟩
    · have hfirm := hs.start hreq hfits
      have ho := (Move.start e.st r n hreq hfits).onlyRails
      have hb := becomes_start e.st r n
      rw [handGrant_start h]
      by_cases hqr : q = r
      · subst hqr
        exact .inr ⟨rfl, hw, .ramping h (hb.rail_self hs.holds hfirm.holds ho (hs.table.acyclic.not_self q) rfl), fun _ ha _ => .inl ha⟩
      · exact .inl ⟨hb.rail_eq_of_holding hs.holds hfirm.holds ho (by rw [hw]; rfl) hqr, fun _ ha _ => ha⟩

/-! #### All the grants of an event -/

theorem GrantedAt.state {s : State} {n : Nat} {r : Rail} {x : RailRuntime} (h : GrantedAt s n r x) :
    x.state = .ramping ∨ x.state = .fault := by
  cases h with
  | ramping _ he => exact .inl (by rw [he]; rfl)
  | backfeed _ _ he => exact .inr (by rw [he]; rfl)

theorem GrantedAt.congr {s t : State} {n : Nat} {r : Rail} {x : RailRuntime} (h : GrantedAt t n r x)
    (hrail : t.rail r = s.rail r) (hrecord : t.record r = s.record r) : GrantedAt s n r x := by
  have hmonitored : t.monitored r = s.monitored r := by
    unfold State.monitored
    rw [hrecord]
  cases h with
  | ramping hno he => exact .ramping (by rwa [hmonitored, hrail] at hno) (by rwa [hrail, hrecord] at he)
  | backfeed hmon hpg he => exact .backfeed (hmonitored.symm.trans hmon) (by rwa [hrail] at hpg) (by rwa [hrail] at he)

/-- What the grants of an event make of a rail `q` that is not up in `b`, where they begin, and announce of it. -/
inductive LowKept (b : State) (q : Rail) (e : Event) : Prop where
  | same : e.st.rail q = b.rail q → (∀ a ∈ e.log, a.rail? ≠ some q) → LowKept b q e
  | granted (n : Nat) : (b.rail q).state = .waiting → GrantedAt b n q (e.st.rail q) →
      (∀ a ∈ e.log, a.rail? = some q → a = .enteredFault q .backfeed ∧ (e.st.rail q).state = .fault) → LowKept b q e

theorem low_granted {before : State} {e : Event} (hs : Firm before e.st)
    (hbefore : ∀ r, RailSized (e.st.record r) (before.rail r)) {q : Rail} (hq : (e.st.rail q).state.up = false) :
    LowKept e.st q (e.granted before) := by
  refine (repeatRounds_keeps (before := before)
    (P := fun e' => (Firm before e'.st ∧ ∀ r, RailSized (e'.st.record r) (before.rail r)) ∧ OnlyRails e.st e'.st
      ∧ LowKept e.st q e')
    (fun s t log hqueue ⟨⟨hf, hb⟩, ho, hk⟩ => ?_) (fun e' r k n hreq hfits ⟨⟨hf, hb⟩, ho, hk⟩ => ?_) Config.grantRounds
    (e := { e with log := [] }) ⟨⟨hs, hbefore⟩, .refl _, .same rfl nofun⟩).2.2
  · unfold QueueOnly at hqueue
    have hrecord (r : Rail) : t.record r = s.record r := by rw [hqueue]; rfl
    have hrail : t.rail q = s.rail q := by rw [hqueue]; rfl
    refine ⟨⟨hf.of_same (by rw [hqueue]) (by rw [hqueue]), fun r => ?_⟩, ho.trans (by rw [hqueue]; exact onlyRails_setQueue s _), ?_⟩
    · change RailSized (t.record r) _
      rw [hrecord]
      exact hb r
    · cases hk with
      | same he hlog => exact .same (hrail.trans he) hlog
      | granted n hw hat hlog =>
        refine .granted n hw (by rw [hrail]; exact hat) fun a ha haq => ?_
        rw [hrail]
        exact hlog a ha haq
  · have honly := (moves_handGrant before hreq hfits).onlyRails
    refine ⟨⟨hf.handGrant hb hreq hfits, fun r => by rw [honly.record]; exact hb r⟩, ho.trans honly, ?_⟩
    cases hk with
    | same he hlog =>
      rcases low_handGrant hf hb hreq hfits (q := q) (by rw [he]; exact hq) with ⟨hrail, hsaid⟩ | ⟨-, hw, hat, hsaid⟩
      · exact .same (hrail.trans he) fun a ha haq => hlog a (hsaid a ha haq) haq
      · refine .granted n (he ▸ hw) (hat.congr he (ho.record q)) fun a ha haq => ?_
        exact (hsaid a ha haq).resolve_left fun h => hlog a h haq
    | granted m hw hat hlog =>
      have hstate := hat.state
      rcases low_handGrant hf hb hreq hfits (q := q) (by rcases hstate with h | h <;> rw [h] <;> rfl) with ⟨hrail, hsaid⟩ | ⟨-, hw', -⟩
      · refine .granted m hw (by rw [hrail]; exact hat) fun a ha haq => ?_
        rw [hrail]
        exact hlog a (hsaid a ha haq) haq
      · rcases hstate with h | h <;> exact nomatch h.symm.trans hw'

end Sys2Proof.Machine
end

/-! ### The end of a drain (R43, R44) -/

section
namespace Sys2Proof.Machine

/-! #### An event at which nothing is due -/

theorem QueueKept.newRequest {s : State} (hs : QueueKept s) (r : Rail) : s.newRequest r = none := by
  unfold State.newRequest
  by_cases h : s.requestOf r = none
  · rw [h, ite_self]
  · rw [if_pos (hs.every r h)]

theorem grantRound_of_exact {before s : State} (hs : QueueExact s) (log : List Announcement) :
    grantRound before ⟨s, log⟩ = (⟨s, log⟩, false) := by
  have hzero : s.zeroRequest = none := List.findSome?_eq_none_iff.mpr fun r _ => by rw [hs.newRequest]
  have hplace : s.placeRequests = s :=
    placeRequests_of_none hs.newRequest
  unfold grantRound
  dsimp only
  rw [hs.reconcile, hzero]
  dsimp only
  rw [hplace]
  split
  · rfl
  · next q rest hq =>
    obtain ⟨hpos, hwaits⟩ := hs.head q (by rw [hq]; rfl)
    refine if_neg fun hfits => ?_
    rcases (s.fits_iff q.amount).mp hfits with h | h <;> omega

theorem arbitrate_of_exact {before s : State} (hs : QueueExact s) (n : Nat) (log : List Announcement) :
    arbitrate before n ⟨s, log⟩ = ⟨s, log⟩ := by
  unfold arbitrate
  cases n with
  | zero => rfl
  | succ n =>
    unfold repeatRounds
    rw [grantRound_of_exact hs]

/-- Where every rail has its target and the head of the queue waits, an event changes nothing. -/
theorem railTurn_of_aimed {s : State} (haimed : ∀ q, Aimed s q) (hs : QueueExact s) (reserve : Option Link) :
    railTurn reserve [] ⟨s, []⟩ = s := by
  have hsettle : railEvent ⟨s, []⟩ = ⟨s, []⟩ := by
    unfold railEvent
    dsimp only
    rw [settle_eq_foldl, foldl_takeTurn_of_aimed fun q _ => haimed q]
    rfl
  unfold railTurn conclude
  rw [hsettle]
  dsimp only
  rw [arbitrate_of_exact hs]
  rfl

/-! #### The record of a rail whose drain has ended -/

theorem firm_railEvent {m : State} (hs : Calm m) (log : List Announcement) : Firm m (railEvent ⟨m, log⟩).st := by
  obtain ⟨hcalm, haimed⟩ := settle_aimed (e := ⟨m, log⟩) hs
  exact ⟨hcalm, haimed, (Since.refl m).settle (e := ⟨m, log⟩) hs⟩

theorem sized_railEvent {m : State} (hs : Calm m) (log : List Announcement) (r : Rail) :
    RailSized ((railEvent ⟨m, log⟩).st.record r) (m.rail r) := by
  rw [(moves_railEvent ⟨m, log⟩).onlyRails.record]
  exact hs.sized r

/-- A rail that is not up once the rails have settled, at the grants that follow. -/
theorem low_railEvent {m : State} (hs : Calm m) (log : List Announcement) {q : Rail}
    (hq : ((railEvent ⟨m, log⟩).st.rail q).state.up = false) :
    LowKept (railEvent ⟨m, log⟩).st q ((railEvent ⟨m, log⟩).granted m) :=
  low_granted (firm_railEvent hs log) (sized_railEvent hs log) hq

theorem rail_railTurn (reserve : Option Link) (lead log : List Announcement) (m : State) (q : Rail) :
    (railTurn reserve lead ⟨m, log⟩).rail q = ((railEvent ⟨m, log⟩).granted m).st.rail q := by
  unfold railTurn
  exact rail_conclude ..

/-- Where a rail with its target has come to hold its parents anew, or no longer, the rails that it does not stand below have
nothing to take. -/
theorem aimed_below {c m : State} {r : Rail} {y : RailRuntime} (hs : Calm c) (haimed : ∀ q, Aimed c q) (ho : OnlyRails c m)
    (hb : Becomes c m r y) (hholds : HoldsExact m) (htarget : y.target = (c.rail r).target)
    (hclaims : y.claims = (c.rail r).claims) (hsuspended : y.suspended = (c.rail r).suspended) (hfinished : y.drainFinished = false) :
    ∀ q, ¬ Above c q r → Aimed m q := fun q hq => by
  by_cases hqr : q = r
  · subst hqr
    refine ⟨?_, fun hf => ?_⟩
    · rw [hb.targetFor_self hs.holds hholds ho (hs.table.acyclic.not_self q) hclaims hsuspended, hb.self.target, htarget]
      exact (haimed q).target
    · rw [hb.self.onlyAims.drainFinished, hfinished] at hf
      cases hf
  · exact (haimed q).becomes hb hs.holds hholds ho hqr (Bool.eq_false_iff.mpr fun h => hq (.of_isParent h))

/-- A part in which the drain of rail `r` has ended: the rails that the rail does not stand below have nothing to take. -/
theorem drained_aimed {c m : State} {r : Rail} (hs : Calm c) (haimed : ∀ q, Aimed c q) (hr : (c.rail r).state = .draining)
    (ho : OnlyRails c m) (hb : Becomes c m r ((c.rail r).toDrained r)) (hholds : HoldsExact m) :
    Calm m ∧ m.rail r = (c.rail r).toDrained r ∧ ∀ q, ¬ Above c q r → Aimed m q := by
  have hself := hs.table.acyclic.not_self r
  have hrail := hb.rail_self hs.holds hholds ho hself rfl
  refine ⟨hs.becomes ho hb hholds (recordRule_shape.drained r _ hr (hs.shape r)) ((hs.sized r).toDrained hr)
    (acted_toDrained r _) (fun h => ?_) (fun _ c hc => hs.up.child (by rw [hr]; rfl) hc), hrail,
    aimed_below hs haimed ho hb hholds rfl rfl rfl rfl⟩
  rw [running_toDrained] at h
  cases h

/-- What an event leaves of a rail whose drain it ends, and announces of it, ahead of the grants. -/
structure DrainTurn (x : RailRuntime) (r : Rail) (e : Event) : Prop where
  rail : e.st.rail r = x.toDrained r
  told : .enteredOff r ∈ e.log
  only : ∀ a ∈ e.log, a.rail? = some r → a = .enteredOff r

theorem drainTurn_foldl {c m : State} {r : Rail} (hs : Calm c) (haimed : ∀ q, Aimed c q) (hr : (c.rail r).state = .draining)
    (ho : OnlyRails c m) (hb : Becomes c m r ((c.rail r).toDrained r)) (hholds : HoldsExact m) (rs : List Rail) :
    DrainTurn (c.rail r) r (rs.foldl takeTurn ⟨m, [.enteredOff r]⟩) := by
  obtain ⟨hcalm, hrail, haimed'⟩ := drained_aimed hs haimed hr ho hb hholds
  obtain ⟨hkept, hlog⟩ := foldl_takeTurn_outside (rs := rs) (e := ⟨m, [.enteredOff r]⟩) hcalm (U := fun q => Above c q r)
    (fun p q hq hp => (Above.of_isParent (by rwa [State.isParent_of_onlyRails ho] at hp)).trans hq) haimed'
    (q := r) (hs.table.acyclic r)
  exact ⟨hkept.trans hrail, (prefix_foldl_takeTurn rs _).subset List.mem_cons_self,
    fun a ha har => List.mem_singleton.mp (hlog a ha har)⟩

/-- A drain that a rail has to end when its turn comes. -/
theorem takeTurn_finished {a : State} {r : Rail} (ht : a.targetFor r = (a.rail r).target) (hs : (a.rail r).state = .draining)
    (hf : (a.rail r).drainFinished = true) (hd : a.heldByDraining r = false) (log : List Announcement) :
    takeTurn ⟨a, log⟩ r = ⟨a.finishDrain r, log ++ [.enteredOff r]⟩ := by
  unfold takeTurn
  rw [takeTarget_of_eq (e := ⟨a, log⟩) ht]
  exact if_pos ⟨hs, hf, hd⟩

/-- The drain that ends at its expiry, ahead of the grants. -/
theorem drainTurn_expired {s : State} {r : Rail} (hs : Calm s) (haimed : ∀ q, Aimed s q) (hr : (s.rail r).state = .draining)
    (hd : s.heldByDraining r = false) :
    DrainTurn (s.rail r) r (settle ⟨s.modRail r fun x => { x with timer := .stopped, drainFinished := true }, []⟩) := by
  have hmarked := becomes_modRail s r fun x => { x with timer := .stopped, drainFinished := true }
  have ho := onlyRails_modRail s r fun x => { x with timer := .stopped, drainFinished := true }
  have hholds : HoldsExact (s.modRail r fun x => { x with timer := .stopped, drainFinished := true }) :=
    hs.holds.modRail r (fun _ => rfl) fun _ => rfl
  have hcalm := calm_expired hs hr
  have hrail (q : Rail) (hq : q ≠ r) :
      (s.modRail r fun x => { x with timer := .stopped, drainFinished := true }).rail q = s.rail q :=
    (State.rail_modRail ..).trans (if_neg hq)
  have hself : (s.modRail r fun x => { x with timer := .stopped, drainFinished := true }).rail r =
      { s.rail r with timer := .stopped, drainFinished := true } := (State.rail_modRail ..).trans (if_pos rfl)
  generalize (s.modRail r fun x => { x with timer := .stopped, drainFinished := true }) = a at *
  have hstate (q : Rail) : (a.rail q).state = (s.rail q).state := by
    by_cases hq : q = r
    · rw [hq, hself]
    · rw [hrail q hq]
  have haimed' (q : Rail) (hq : q ≠ r) : Aimed a q :=
    (haimed q).congr (hrail q hq) (ho.record q) fun c _ hc => by rw [hstate, hc]
  have htarget : a.targetFor r = (a.rail r).target := by
    rw [State.targetFor_congr (ho.record r) (by rw [hself]) (by rw [hself]) (by rw [hself]), hself]
    exact (haimed r).target.symm
  have hd' : a.heldByDraining r = false := Bool.eq_false_iff.mpr fun h => by
    obtain ⟨c, hc, hcd⟩ := (a.heldByDraining_iff r).mp h
    rw [hself] at hc
    rw [hstate] at hcd
    exact Bool.false_ne_true (hd.symm.trans ((s.heldByDraining_iff r).mpr ⟨c, hc, hcd⟩))
  obtain ⟨-, hall⟩ := hcalm.table.acyclic.childFirst
  obtain ⟨pre, post, he, hnot⟩ := List.eq_append_cons_of_mem (hall r)
  rw [settle_eq_foldl]
  dsimp only
  rw [he, List.foldl_append, foldl_takeTurn_of_aimed fun q hq => haimed' q fun h => hnot (h ▸ hq), List.foldl_cons,
    takeTurn_finished htarget (by rw [hself]; exact hr) (by rw [hself]) hd']
  have hb : Becomes s (a.finishDrain r) r ((s.rail r).toDrained r) :=
    hmarked.trans (g := RailRuntime.toDrained r) (becomes_finishDrain a r) fun _ _ => rfl
  exact drainTurn_foldl hs haimed hr (ho.trans (onlyRails_finishDrain a r)) hb
    ((hholds.giveBack r 0).moveRail r rfl) post

theorem DrainTurn.ordered {x : RailRuntime} {r : Rail} {e : Event} (h : DrainTurn x r e) :
    DrainTurn x r { e with log := byRail e.log } :=
  ⟨h.rail, mem_byRail rfl h.told, fun a ha har => h.only a (mem_of_mem_byRail ha) har⟩

/-! #### What the sessions make of it -/

/-- Announcements placed among the fault groups: the only one of rail `r` stands ahead of its fault. -/
theorem placeGroups_first {own groups : List Announcement} {r : Rail} {b : Announcement} (hb : b ∈ own) (hbr : b.rail? = some r)
    (hown : ∀ a ∈ own, a.rail? = some r → a = b) (hgroups : ∀ a ∈ groups, a.rail? = some r → ∃ k, a = .enteredFault r k) :
    ∃ pre post, placeGroups own groups = pre ++ b :: post ∧ ∀ a ∈ pre, a.rail? ≠ some r := by
  have hsplit {xs : List Announcement} (hxs : ∀ a ∈ xs, a.rail? = some r → a = b) (hb : b ∈ xs) :
      ∃ pre post, xs = pre ++ b :: post ∧ ∀ a ∈ pre, a.rail? ≠ some r := by
    obtain ⟨pre, post, he, hnot⟩ := List.eq_append_cons_of_mem hb
    refine ⟨pre, post, he, fun a ha har => hnot ?_⟩
    rw [← hxs a (by rw [he]; exact List.mem_append_left _ ha) har]
    exact ha
  induction groups generalizing own with
  | nil => exact hsplit hown hb
  | cons a groups ih =>
    have hrest : ∀ a ∈ groups, a.rail? = some r → ∃ k, a = .enteredFault r k := fun x hx => hgroups x (List.mem_cons_of_mem a hx)
    have hlater {own' : List Announcement} (hb : b ∈ own') (hown : ∀ a ∈ own', a.rail? = some r → a = b)
        {head : List Announcement} (hhead : ∀ a ∈ head, a.rail? ≠ some r) :
        ∃ pre post, head ++ placeGroups own' groups = pre ++ b :: post ∧ ∀ a ∈ pre, a.rail? ≠ some r := by
      obtain ⟨pre, post, he, hpre⟩ := ih hb hown hrest
      refine ⟨head ++ pre, post, by rw [he, List.append_assoc], fun x hx => ?_⟩
      exact (List.mem_append.mp hx).elim (hhead x) (hpre x)
    by_cases ha : ∃ x k, a = .enteredFault x k
    · obtain ⟨x, k, rfl⟩ := ha
      have hplaced : placeGroups own (.enteredFault x k :: groups) =
          own.filter (fun b => b.upTo x) ++ .enteredFault x k :: placeGroups (own.filter fun b => !b.upTo x) groups := rfl
      rw [hplaced]
      by_cases hup : b.upTo x = true
      · obtain ⟨pre, post, he, hpre⟩ := hsplit (xs := own.filter fun b => b.upTo x)
          (fun y hy => hown y (List.mem_filter.mp hy).1) (List.mem_filter.mpr ⟨hb, hup⟩)
        rw [he]
        exact ⟨pre, post ++ .enteredFault x k :: placeGroups (own.filter fun b => !b.upTo x) groups, by simp, hpre⟩
      · have hxr : x ≠ r := by
          rintro rfl
          unfold Announcement.upTo at hup
          rw [hbr] at hup
          exact hup (decide_eq_true (Nat.le_refl _))
        have hhead : ∀ y ∈ own.filter (fun b => b.upTo x) ++ [.enteredFault x k], y.rail? ≠ some r := fun y hy hyr => by
          rcases List.mem_append.mp hy with h | h
          · obtain ⟨hmem, hyup⟩ := List.mem_filter.mp h
            rw [hown y hmem hyr] at hyup
            exact hup hyup
          · rw [List.mem_singleton.mp h] at hyr
            exact hxr (Option.some.inj hyr)
        have h := hlater (own' := own.filter fun b => !b.upTo x) (List.mem_filter.mpr ⟨hb, by simpa using hup⟩)
          (fun y hy => hown y (List.mem_filter.mp hy).1) hhead
        rwa [List.append_assoc] at h
    · have hplaced : placeGroups own (a :: groups) = a :: placeGroups own groups := by
        cases a with
        | enteredFault x k => exact absurd ⟨x, k, rfl⟩ ha
        | _ => rfl
      rw [hplaced]
      refine hlater hb hown (head := [a]) fun y hy hyr => ?_
      rw [List.mem_singleton.mp hy] at hyr
      obtain ⟨k, hk⟩ := hgroups a List.mem_cons_self hyr
      exact ha ⟨r, k, hk⟩

/-- A completion that the first announcement of its rail resolves: it is out of the table, its record in the queue. -/
theorem Session.resolved_by_first {s : State} {l : Link} {log : List Announcement} {x : Session} (hx : x.state = .attached)
    {r : Rail} {o : Outstanding} (ho : x.table.get r = some o) {b : Announcement} (hb : b.rail? = some r)
    (hfirst : ∃ pre post, log = pre ++ b :: post ∧ ∀ a ∈ pre, a.rail? ≠ some r) {code : EventCode} {level : Nat} {d : Detail}
    (hres : resolution b o.kind (s.rail r).level = some (code, level, d)) :
    (log.foldl (Session.takes s none l) x).table.get r = none
      ∧ (⟨code, some r, some o.tag, level, d, s.timestamp⟩ : EventRecord) ∈ (log.foldl (Session.takes s none l) x).queue := by
  obtain ⟨pre, post, rfl, hpre⟩ := hfirst
  have hhead := Session.resolved_foldl_takes s none l (log := pre ++ [b]) hx ho
    (P := fun e => e = ⟨code, some r, some o.tag, level, d, s.timestamp⟩)
    ⟨b, List.mem_append_right _ List.mem_cons_self, hb, by rw [hres]; rfl⟩ fun a ha har code' level' d' h => by
      rcases List.mem_append.mp ha with h' | h'
      · exact absurd har (hpre a h')
      · rw [List.mem_singleton.mp h', hres] at h
        cases h
        rfl
  have hsplit : pre ++ b :: post = (pre ++ [b]) ++ post := by simp
  rw [hsplit, List.foldl_append]
  obtain ⟨hnone, e, he, rfl⟩ := hhead
  exact ⟨Session.foldl_takes_table_none s none l post hnone, (Session.foldl_takes_grows s none l post _).subset he⟩

/-! #### The event -/

/-- What the event that ends the drain of rail `r`, whose record was `x`, leaves of it and of the OFF-WAITs on it. -/
structure DrainEnded (x : RailRuntime) (s t : State) (r : Rail) : Prop where
  off : x.target = 0 → t.rail r = x.toDrained r
  on : x.target ≠ 0 → (t.rail r).state = .waiting ∨ (t.rail r).state = .ramping ∨ (t.rail r).state = .fault
  finished : (t.rail r).drainFinished = false
  cause : (t.rail r).drainCause = x.drainCause
  answered : ∀ (l : Link) (tag : Byte), (s.session l).state = .attached → s.outstanding l r = some ⟨.offWait, tag⟩ →
    t.outstanding l r = none
      ∧ (⟨.offReached, some r, some tag, 0, .absent, s.timestamp⟩ : EventRecord) ∈ (t.session l).queue

theorem drainEnded_railTurn {x : RailRuntime} {s m : State} {r : Rail} (hs : Calm m) {log : List Announcement}
    (hsessions : m.sessions = s.sessions) (hnow : m.timestamp = s.timestamp)
    (h : DrainTurn x r (settle ⟨m, log⟩)) : DrainEnded x s (railTurn none [] ⟨m, log⟩) r := by
  have hturn : DrainTurn x r (railEvent ⟨m, log⟩) := h.ordered
  have hlow : ((railEvent ⟨m, log⟩).st.rail r).state.up = false := by
    rw [hturn.rail, state_toDrained]
    split <;> rfl
  have hkept := low_railEvent hs log hlow
  have hrail := rail_railTurn none [] log m r
  have ho := (onlyRails_railEvent ⟨m, log⟩).trans (onlyRails_granted m (railEvent ⟨m, log⟩))
  have hsession := session_conclude none [] m (railEvent ⟨m, log⟩)
  have hstart := (onlyRails_railEvent ⟨m, log⟩).session
  unfold railTurn at hrail ⊢
  dsimp only at hrail ⊢
  generalize railEvent ⟨m, log⟩ = e at hturn hlow hkept hrail ho hsession hstart
  generalize ht : conclude none [] m e = t at hrail hsession
  have hfirst : ∃ pre post, e.told [] m = pre ++ .enteredOff r :: post ∧ ∀ a ∈ pre, a.rail? ≠ some r := by
    obtain ⟨pre, post, he, hpre⟩ := placeGroups_first (groups := (e.granted m).log) hturn.told rfl hturn.only fun a ha har => by
      cases hkept with
      | same _ hnone => exact absurd har (hnone a ha)
      | granted n _ _ hfault => exact ⟨_, (hfault a ha har).1⟩
    unfold Event.told
    rw [List.nil_append, he, List.filter_append, List.filter_cons_of_pos (by rfl)]
    exact ⟨_, _, rfl, fun a ha => hpre a (List.mem_filter.mp ha).1⟩
  have hafter : ((e.granted m).st.rail r).drainFinished = false ∧ ((e.granted m).st.rail r).drainCause = x.drainCause := by
    cases hkept with
    | same he _ =>
      rw [he, hturn.rail]
      exact ⟨rfl, rfl⟩
    | granted n _ hat _ =>
      cases hat with
      | ramping _ he =>
        rw [he, hturn.rail]
        exact ⟨rfl, rfl⟩
      | backfeed _ _ he =>
        rw [he, hturn.rail]
        exact ⟨rfl, rfl⟩
  refine ⟨fun h0 => ?_, fun h0 => ?_, by rw [hrail]; exact hafter.1, by rw [hrail]; exact hafter.2, fun l tag hatt hout => ?_⟩
  · rw [hrail]
    cases hkept with
    | same he _ => exact he.trans hturn.rail
    | granted n hw _ _ =>
      rw [hturn.rail, state_toDrained, if_pos h0] at hw
      cases hw
  · rw [hrail]
    cases hkept with
    | same he _ =>
      rw [he, hturn.rail, state_toDrained, if_neg h0]
      exact .inl rfl
    | granted n _ hat _ => exact .inr hat.state
  · have hl : e.st.session l = s.session l := by
      rw [hstart, State.session, hsessions]
      rfl
    have hstamp : (e.granted m).st.timestamp = s.timestamp := by rw [ho.timestamp, hnow]
    have hdone := Session.resolved_by_first (s := (e.granted m).st) (l := l) (x := s.session l) hatt hout
      (b := .enteredOff r) rfl hfirst (code := .offReached) (level := 0) (d := .absent) rfl
    rw [hstamp] at hdone
    rw [State.outstanding, hsession, hl]
    exact hdone

theorem lvlCode_zero (r : Rail) : lvlCode r 0 = 0 := by
  unfold lvlCode
  split <;> rfl

/-- A rail that has left OFF stands in a committed part. -/
theorem Coherent.committed {s : State} (hs : Coherent s) {r : Rail} (hr : (s.rail r).state ≠ .off) : s.lifecycle = .committed := by
  cases hu : s.lifecycle with
  | committed => rfl
  | uncommitted => exact absurd (((idleBeforeCommit_iff s).mp hs.idle hu).state r) hr

theorem drainExpiry_of_due {s : State} {r : Rail} (hr : (s.rail r).state = .draining) (htimer : (s.rail r).timer = .running 0)
    (hpg : s.monitored r = false ∨ (s.rail r).pg = .low) :
    drainExpiry r s = railTurn none [] ⟨s.modRail r fun x => { x with timer := .stopped, drainFinished := true }, []⟩ := by
  unfold drainExpiry
  rw [if_pos ⟨hr, by rw [htimer]; rfl⟩, if_neg]
  rintro ⟨hmon, hhigh⟩
  rcases hpg with h | h
  · exact Bool.false_ne_true (h.symm.trans hmon)
  · exact nomatch h.symm.trans hhigh

/-- A drain time that expires while a draining child holds the rail leaves the mark alone. -/
theorem railTurn_expired_of_held {s : State} (hs : Coherent s) {r : Rail} (hheld : s.heldByDraining r = true) :
    railTurn none [] ⟨s.modRail r fun x => { x with timer := .stopped, drainFinished := true }, []⟩ =
      s.modRail r fun x => { x with timer := .stopped, drainFinished := true } := by
  have hrail (q : Rail) : ∃ timer finished,
      (s.modRail r fun x => { x with timer := .stopped, drainFinished := true }).rail q =
        { s.rail q with timer := timer, drainFinished := finished } ∧ (q ≠ r → finished = (s.rail q).drainFinished) := by
    rw [State.rail_modRail]
    split
    · next h => exact ⟨_, _, by rw [h], fun hq => absurd h hq⟩
    · exact ⟨_, _, rfl, fun _ => rfl⟩
  have ho := onlyRails_modRail s r fun x => { x with timer := .stopped, drainFinished := true }
  have hqueue : (s.modRail r fun x => { x with timer := .stopped, drainFinished := true }).budgetQueue = s.budgetQueue := rfl
  have hallocated : (s.modRail r fun x => { x with timer := .stopped, drainFinished := true }).allocated = s.allocated := rfl
  generalize (s.modRail r fun x => { x with timer := .stopped, drainFinished := true }) = a at *
  have hasks : ∀ q, a.requestOf q = s.requestOf q := by
    refine State.requestOf_congr ho.records (by rw [ho.supply]) (fun q => ?_) (fun q => ?_) fun q => ?_
    all_goals
      obtain ⟨timer, finished, hq, -⟩ := hrail q
      rw [hq]
  refine railTurn_of_aimed (fun q => ?_) (hs.queueExact.same ⟨hqueue, hallocated, ho.limit, ho.records, hasks⟩) none
  obtain ⟨timer, finished, hq, hkept⟩ := hrail q
  refine ⟨?_, fun hf => ?_⟩
  · rw [State.targetFor_congr (ho.record q) (by rw [hq]) (by rw [hq]) (by rw [hq]), hq]
    exact hs.settled.target q
  · have hd : s.heldByDraining q = true := by
      by_cases hqr : q = r
      · rwa [hqr]
      · rw [hq] at hf
        exact hs.settled.finished q ((hkept hqr).symm.trans hf)
    obtain ⟨c, hc, hcd⟩ := (s.heldByDraining_iff q).mp hd
    obtain ⟨timer', finished', hcq, -⟩ := hrail c
    exact (a.heldByDraining_iff q).mpr ⟨c, by rw [hq]; exact hc, by rw [hcq]; exact hcd⟩

/-- The deferred end of a drain, ahead of the grants, where but for its mark the part is coherent. -/
theorem drainTurn_deferred {s c : State} {r : Rail} (hc : Coherent c) (hr : (s.rail r).state = .draining)
    (hfound : c = { s with rails := s.rails.set r.val { s.rail r with timer := .running 0, drainFinished := false } r.isLt }) :
    Calm (s.finishDrain r) ∧ DrainTurn (s.rail r) r (settle ⟨s.finishDrain r, [.enteredOff r]⟩) := by
  have hrail (q : Rail) : c.rail q =
      if q = r then { s.rail r with timer := .running 0, drainFinished := false } else s.rail q := by
    rw [hfound]
    exact get_set ..
  have hself := (hrail r).trans (if_pos rfl)
  have hother (q : Rail) (hq : q ≠ r) : c.rail q = s.rail q := (hrail q).trans (if_neg hq)
  have hstate (q : Rail) : (c.rail q).state = (s.rail q).state := by
    rw [hrail]
    split
    · next h => rw [h]
    · rfl
  have hholdSet (q : Rail) : (c.rail q).holdSet = (s.rail q).holdSet := by
    rw [hrail]
    split
    · next h => rw [h]
    · rfl
  have hr' : (c.rail r).state = .draining := (hstate r).trans hr
  have hcalm := hc.calm (hc.committed (by rw [hr']; nofun))
  have hrecords : c.records = s.records := by rw [hfound]
  have hholds : HoldsExact (s.finishDrain r) :=
    ((hc.holds.congr hrecords.symm (fun q => (hstate q).symm) fun q => (hholdSet q).symm).giveBack r 0).moveRail r rfl
  have hdrained : (c.rail r).toDrained r = (s.rail r).toDrained r := by rw [hself]; rfl
  have hb : Becomes c (s.finishDrain r) r ((c.rail r).toDrained r) := fun q => by
    have h := becomes_finishDrain s r q
    rw [← hdrained] at h
    split
    · next hq => rwa [if_pos hq] at h
    · next hq => rwa [if_neg hq, ← hother q hq] at h
  have ho : OnlyRails c (s.finishDrain r) := by
    have hsc : OnlyRails c s := by
      rw [hfound]
      rfl
    exact hsc.trans (onlyRails_finishDrain s r)
  refine ⟨(drained_aimed hcalm hc.aimed hr' ho hb hholds).1, ?_⟩
  have h := drainTurn_foldl hcalm hc.aimed hr' ho hb hholds (s.finishDrain r).childFirst
  rw [settle_eq_foldl]
  exact ⟨h.rail.trans hdrained, h.told, h.only⟩

/-- Settles O36. -/
theorem drainsEndOnceNoDrainingChildHolds : Obligations.DrainsEndOnceNoDrainingChildHolds := by
  refine ⟨fun r s hs hr htimer hpg hheld => ?_, fun c r s hr hheld hc => ?_⟩
  · change Host.Outcome.next (drainExpiry r s) = _
    rw [drainExpiry_of_due hr htimer hpg, railTurn_expired_of_held hs hheld]
    rfl
  · have hdue : ∃ m log, exec c s = .next (railTurn none [] ⟨m, log⟩) ∧ Calm m ∧ m.sessions = s.sessions
        ∧ m.timestamp = s.timestamp ∧ DrainTurn (s.rail r) r (settle ⟨m, log⟩) := by
      rcases hc with ⟨rfl, hs, htimer, hpg⟩ | ⟨rfl, hf, hs⟩
      · have hcalm := hs.calm (hs.committed (r := r) (by rw [hr]; nofun))
        exact ⟨_, _, congrArg Host.Outcome.next (drainExpiry_of_due hr htimer hpg), calm_expired hcalm hr, rfl, rfl,
          drainTurn_expired hcalm hs.aimed hr hheld⟩
      · obtain ⟨hcalm, hturn⟩ := drainTurn_deferred hs hr rfl
        have ho := onlyRails_finishDrain s r
        exact ⟨_, _, congrArg Host.Outcome.next (if_pos ⟨hr, hf, hheld⟩), hcalm, ho.sessions, ho.timestamp, hturn⟩
    obtain ⟨m, log, hexec, hcalm, hsessions, hnow, hturn⟩ := hdue
    have hended := drainEnded_railTurn hcalm hsessions hnow hturn
    have hsteady := steady_railTurn hcalm none [] log
    generalize railTurn none [] ⟨m, log⟩ = t at hexec hended hsteady
    refine ⟨t, hexec, fun h0 => ?_, hended.on, hended.finished, hended.cause, hended.answered⟩
    have hrail := hended.off h0
    have hoff : (t.rail r).state = .off := by rw [hrail, state_toDrained, if_pos h0]
    rw [hrail]
    refine ⟨by rw [← hrail]; exact hoff, rfl, ?_, ?_, rfl, h0, fun p hp => ?_⟩
    · rfl
    · exact lvlCode_zero r
    · rw [hsteady.holds, hoff]
      exact Bool.and_false _

end Sys2Proof.Machine
end

/-! ### CLEAR_FAULT accepted (R48, R108, R109) -/

section
namespace Sys2Proof.Machine

/-- A record with its fault latch cleared, in OFF or on in WAITING (R48). -/
def RailRuntime.unlatched (x : RailRuntime) : RailRuntime :=
  { x with faultLatch := false, level := 0, state := if x.target = 0 then .off else .waiting }

theorem clearFaultTaken_eq (l : Link) (r : Rail) (s : State) : clearFaultTaken l r s =
    railTurn none [] ⟨s.moveRail r RailRuntime.unlatched, [.faultCleared r (s.rail r).faultKind l]⟩ := rfl

theorem RailRuntime.unlatched_not_fault (x : RailRuntime) : x.unlatched.state ≠ .fault := by
  unfold RailRuntime.unlatched
  dsimp only
  split <;> nofun

/-- The lines and the holds that follow the rail's new state. -/
theorem railsReact_unlatched {s b : State} {r : Rail}
    (hb : b.rails = s.rails.set r.val (s.rail r).unlatched r.isLt) : RailsReact b (s.moveRail r RailRuntime.unlatched) := fun q => by
  have hrail : b.rail q = if q = r then (s.rail r).unlatched else s.rail q := by
    rw [State.rail, hb]
    exact get_set ..
  have hlines : RailReacts (b.rail q) (if q = r then driveLines r (s.rail r).unlatched else s.rail q) := by
    rw [hrail]
    split
    · exact (RailReacts.refl _).withLines (RailRuntime.unlatched_not_fault _) r
    · exact .refl _
  rw [State.rail_moveRail]
  dsimp only
  split
  · exact hlines.withHoldSet _
  · exact hlines

/-- A record that is in FAULT for no other reason than the BACKFEED that its START found. -/
def OnlyBackfed (monitored : Bool) (x : RailRuntime) : Prop :=
  x.state = .fault → x.faultKind = some .backfeed ∧ monitored = true ∧ x.pg = .high

theorem OnlyBackfed.step {r : Rail} {rec : RailRecord} {asks : Option (GrantKind × Nat)} {x y : RailRuntime}
    (h : RailStep r rec asks x y) (hx : OnlyBackfed (rec.defined && rec.pgMode == .monitored) x) :
    OnlyBackfed (rec.defined && rec.pgMode == .monitored) y := by
  have hnot {z : RailRuntime} (hy : SameButHolds z y) (hz : z.state ≠ .fault) :
      OnlyBackfed (rec.defined && rec.pgMode == .monitored) y := fun hf => absurd (hy.state.symm.trans hf) hz
  cases h with
  | aims h =>
    intro hf
    rw [h] at hf ⊢
    exact hx hf
  | wait _ _ hy => exact hnot hy nofun
  | unwait _ _ hy => exact hnot hy nofun
  | drain c _ hy => exact hnot hy nofun
  | slewDown _ _ _ hy => exact hnot hy nofun
  | drained _ _ hy => exact hnot hy (fault_toDrained r x)
  | start n _ _ _ hy => exact hnot hy nofun
  | backfeed n _ hmon hpg _ hy =>
    intro _
    rw [hy]
    exact ⟨rfl, hmon, hpg⟩
  | raise n _ _ _ _ hy => exact hnot hy nofun
  | wholeFall level _ _ hy => exact hnot hy nofun

theorem Moves.onlyBackfed {s t : State} (h : Moves s t) {r : Rail} (hs : OnlyBackfed (s.monitored r) (s.rail r)) :
    OnlyBackfed (s.monitored r) (t.rail r) :=
  h.keepRail (P := OnlyBackfed (s.monitored r)) (fun _ _ _ hstep hx => OnlyBackfed.step hstep hx) rfl hs

/-! #### The rail after the event -/

/-- A rail that has been cleared stays in OFF where nothing is asked of it, and waits or is granted its START where something
is. -/
theorem state_cleared {s : State} {r : Rail} (hs : Calm s) (haimed : ∀ q, Aimed s q) (hl : (s.rail r).faultLatch = true)
    (log : List Announcement) :
    ((s.rail r).target = 0 → ((railTurn none [] ⟨s.moveRail r RailRuntime.unlatched, log⟩).rail r).state = .off)
      ∧ ((s.rail r).target ≠ 0 →
        ((railTurn none [] ⟨s.moveRail r RailRuntime.unlatched, log⟩).rail r).state = .waiting
          ∨ ((railTurn none [] ⟨s.moveRail r RailRuntime.unlatched, log⟩).rail r).state = .ramping
          ∨ ((railTurn none [] ⟨s.moveRail r RailRuntime.unlatched, log⟩).rail r).state = .fault) := by
  have hfault := (hs.shape r).latch.mp hl
  have hcalm : Calm (s.moveRail r RailRuntime.unlatched) := calm_cleared hs hl
  have hb := becomes_moveRail s r RailRuntime.unlatched
  have ho := onlyRails_moveRail s r RailRuntime.unlatched
  have hbelow := aimed_below hs haimed ho hb hcalm.holds rfl rfl rfl ((hs.shape r).drainFinished_eq_false (by rw [hfault]; nofun))
  have hself : ((s.moveRail r RailRuntime.unlatched).rail r).state = if (s.rail r).target = 0 then .off else .waiting :=
    hb.self.state
  generalize s.moveRail r RailRuntime.unlatched = m at hcalm hb ho hbelow hself
  have hsettled := (settle_outside (e := ⟨m, log⟩) hcalm (U := fun q => Above s q r)
    (fun p q hq hp => (Above.of_isParent (by rwa [State.isParent_of_onlyRails ho] at hp)).trans hq) hbelow
    (q := r) (hs.table.acyclic r)).1
  have hstate : ((railEvent ⟨m, log⟩).st.rail r).state = if (s.rail r).target = 0 then .off else .waiting := by
    rw [← hself]
    exact congrArg RailRuntime.state hsettled
  have hkept := low_railEvent hcalm log (q := r) (by
    rw [hstate]
    split <;> rfl)
  rw [rail_railTurn]
  refine ⟨fun h0 => ?_, fun h0 => ?_⟩
  · rw [if_pos h0] at hstate
    cases hkept with
    | same he _ => rw [he, hstate]
    | granted n hw _ _ => exact nomatch hstate.symm.trans hw
  · rw [if_neg h0] at hstate
    cases hkept with
    | same he _ => exact .inl (by rw [he, hstate])
    | granted n _ hat _ => exact .inr hat.state

theorem Coherent.leased {s : State} (hs : Coherent s) (hc : s.lifecycle = .committed) (l : Link) : Steady (s.leased l) :=
  (hs.attended.steady hc).beside rfl

section
variable (s : State) (r : Rail) (log : List Announcement)

theorem reaction_unlatched :
    Reaction { s with rails := s.rails.set r.val (s.rail r).unlatched r.isLt }
      (railTurn none [] ⟨s.moveRail r RailRuntime.unlatched, log⟩) := by
  have hstart : RailsReact { s with rails := s.rails.set r.val (s.rail r).unlatched r.isLt }
      (s.moveRail r RailRuntime.unlatched) := railsReact_unlatched rfl
  have honly : OnlyRails { s with rails := s.rails.set r.val (s.rail r).unlatched r.isLt }
      (s.moveRail r RailRuntime.unlatched) := onlyRails_moveRail s r RailRuntime.unlatched
  generalize s.moveRail r RailRuntime.unlatched = m at hstart honly
  exact reaction_conclude none [] m _ (railEvent ⟨m, log⟩) (honly.trans (onlyRails_railEvent ⟨m, log⟩))
    (hstart.trans (railsReact_railEvent ⟨m, log⟩))

theorem backfed_unlatched (h : ((railTurn none [] ⟨s.moveRail r RailRuntime.unlatched, log⟩).rail r).state = .fault) :
    ((railTurn none [] ⟨s.moveRail r RailRuntime.unlatched, log⟩).rail r).faultKind = some .backfeed
      ∧ s.monitored r = true ∧ (s.rail r).pg = .high := by
  have hself := (becomes_moveRail s r RailRuntime.unlatched).self
  have hrecord := (onlyRails_moveRail s r RailRuntime.unlatched).record r
  generalize s.moveRail r RailRuntime.unlatched = m at h hself hrecord
  have hmonitored : m.monitored r = s.monitored r := by
    unfold State.monitored
    rw [hrecord]
  obtain ⟨u, hm, hu⟩ := moves_railTurn none [] log m
  have hnot : (m.rail r).state ≠ .fault := fun hf =>
    RailRuntime.unlatched_not_fault (s.rail r) (hself.state.symm.trans hf)
  rw [hu.rail] at h ⊢
  obtain ⟨hkind, hmon, hpg⟩ := hm.onlyBackfed (r := r) (fun hf => absurd hf hnot) h
  refine ⟨hkind, hmonitored ▸ hmon, ?_⟩
  have hkept : (m.rail r).pg = (s.rail r).pg := by
    rw [hself]
    rfl
  rw [← hkept, ← (hm.inputs r).2.2, hpg]

/-- What the other claimants hear of a fault cleared. -/
theorem told_unlatched (caller : Link) {m : Link} (hm : m ≠ caller) (hatt : (s.session m).state = .attached)
    (hmask : (s.session m).mask.faultCleared = true) (hclaim : s.claim m r ≠ 0) :
    (⟨.faultCleared, some r, none, 0, .fault (s.rail r).faultKind, s.timestamp⟩ : EventRecord)
        ∈ ((railTurn none [] ⟨s.moveRail r RailRuntime.unlatched, [.faultCleared r (s.rail r).faultKind caller]⟩).session m).queue
      ∨ 24 ≤ ((railTurn none []
          ⟨s.moveRail r RailRuntime.unlatched, [.faultCleared r (s.rail r).faultKind caller]⟩).session m).roomUsed := by
  have ho := onlyRails_moveRail s r RailRuntime.unlatched
  have hclaims : ((s.moveRail r RailRuntime.unlatched).claim m r) = s.claim m r :=
    (becomes_moveRail s r RailRuntime.unlatched).claim rfl m r
  generalize s.moveRail r RailRuntime.unlatched = a at ho hclaims
  have hlog := (prefix_foldl_takeTurn a.childFirst ⟨a, [.faultCleared r (s.rail r).faultKind caller]⟩).subset List.mem_cons_self
  have hown : .faultCleared r (s.rail r).faultKind caller
      ∈ (railEvent ⟨a, [.faultCleared r (s.rail r).faultKind caller]⟩).log := mem_byRail rfl hlog
  have hreact := railsReact_railEvent ⟨a, [.faultCleared r (s.rail r).faultKind caller]⟩
  have hrest := onlyRails_railEvent ⟨a, [.faultCleared r (s.rail r).faultKind caller]⟩
  unfold railTurn
  dsimp only
  generalize railEvent ⟨a, [.faultCleared r (s.rail r).faultKind caller]⟩ = e at hown hreact hrest
  have hsession := session_conclude none [] a e m
  have hgranted := onlyRails_granted a e
  have hgrantedReact := railsReact_granted a e
  have htold : .faultCleared r (s.rail r).faultKind caller ∈ e.told [] a :=
    List.mem_filter.mpr ⟨List.mem_append_right _ ((mem_placeGroups ..).mpr (.inl hown)), rfl⟩
  have hsame : e.st.session m = s.session m := (hrest.session m).trans (ho.session m)
  generalize (e.granted a).st = w at *
  have hnotice : w.noticeFrom m (s.session m).mask (.faultCleared r (s.rail r).faultKind caller) =
      some ⟨.faultCleared, some r, none, 0, .fault (s.rail r).faultKind, s.timestamp⟩ := by
    have hclaimant : w.claimant m r = true := by
      unfold State.claimant
      rw [hgrantedReact.claim, hreact.claim, hclaims]
      exact bne_iff_ne.mpr hclaim
    unfold State.noticeFrom
    dsimp only
    rw [hmask, hclaimant, hgranted.timestamp, hrest.timestamp, ho.timestamp, bne_iff_ne.mpr hm]
    rfl
  rw [hsession, hsame]
  have hoffered := Session.mem_foldl_takes w none m htold hatt hnotice
  rwa [reservedFor_none, Nat.add_zero] at hoffered

end

/-- Settles O30: the record cleared, its event, and the announcement that the other claimants hear. -/
theorem clearFaultIsTaken : Obligations.ClearFaultIsTaken := by
  intro l f s r hp hr hclaim hlatch hretry
  have hcommitted := committed_of_lifecycleRefusal (.inr (.inr rfl)) hp.lifecycle
  have hlimit : ¬((s.record r).retryLimit.toNat ≠ 0 ∧ (s.record r).retryLimit.toNat ≤ (s.rail r).faultCount) := by
    rintro ⟨hne, hle⟩
    rcases hretry with h | h
    · rw [h] at hne
      exact hne rfl
    · omega
  have hanswer := (clearFaultAnswer_of_latched (t := s.leased l) (f := f) (Names.namedRail hr) hclaim hlatch).trans (if_neg hlimit)
  have hserve : s.serve .clearFault l f (clearFaultAnswer l f) = (clearFaultAnswer l f (s.leased l)).st.respond l f.tag
      (clearFaultAnswer l f (s.leased l)).status (clearFaultAnswer l f (s.leased l)).data := hp.serve_eq nofun nofun _
  have hreact := reaction_unlatched (s.leased l) r [.faultCleared r ((s.leased l).rail r).faultKind l]
  have hbackfed := backfed_unlatched (s.leased l) r [.faultCleared r ((s.leased l).rail r).faultKind l]
  have htold := fun m hm => told_unlatched (s.leased l) r l (m := m) hm
  have hstate (hs : Coherent s) :=
    state_cleared (hs.leased hcommitted l).toCalm (hs.leased hcommitted l).aimed hlatch [.faultCleared r ((s.leased l).rail r).faultKind l]
  have hown := session_leased s l
  have htaken : clearFaultTaken l r (s.leased l) = railTurn none []
      ⟨(s.leased l).moveRail r RailRuntime.unlatched, [.faultCleared r ((s.leased l).rail r).faultKind l]⟩ := clearFaultTaken_eq ..
  rw [hanswer, htaken] at hserve
  generalize railTurn none [] ⟨(s.leased l).moveRail r RailRuntime.unlatched, [.faultCleared r ((s.leased l).rail r).faultKind l]⟩ = w at *
  have hlinks : w.links = s.links := by
    rw [hreact.rest]
    rfl
  have hother (m : Link) (hm : m ≠ l) : (s.leased l).session m = s.session m := (hown m).trans (if_neg hm)
  refine ⟨_, congrArg Host.Outcome.next hserve, answered_respond hlinks,
    reactionBeside_of hreact rfl hother (State.respond_eq ..) fun _ _ => rfl, ?_, hbackfed, fun hnot => ?_,
    fun hs => (hstate hs).1, fun hs => (hstate hs).2, fun m hm hatt hmask hm0 => ?_⟩
  · have hwritten := hreact.session l
    rw [show ({ s.leased l with rails := (s.leased l).rails.set r.val ((s.leased l).rail r).unlatched r.isLt } : State).session l =
      _ from (hown l).trans (if_pos rfl)] at hwritten
    exact hwritten
  · rcases hreact.fault r with ⟨hl, -⟩ | ⟨hf, -⟩
    · have hself : ({ s.leased l with
          rails := (s.leased l).rails.set r.val ((s.leased l).rail r).unlatched r.isLt } : State).rail r =
          ((s.leased l).rail r).unlatched := (get_set ..).trans (if_pos rfl)
      exact hl.trans (congrArg RailRuntime.faultLatch hself)
    · exact absurd hf hnot
  · have h := htold m hm
    rw [hother m hm] at h
    exact h hatt hmask hm0

end Sys2Proof.Machine
end

/-! ### The warm reset (R50, R60, R90, R127, R175, R176) -/

section
namespace Sys2Proof.Machine

/-! #### What the reset leaves, ahead of the rails' targets -/

/-- The suspended flag of rail `r` after a fresh evaluation that finds SENSE at `v` (R119, R127). -/
def State.flagRestarted (s : State) (v : Nat) (r : Rail) : Bool :=
  decide (s.lifecycle = .committed ∧ s.part.evaluated v = .low ∧ (s.record r).defined = true ∧ (s.record r).shedClass = .shed)

/-- The part as a warm reset leaves it, ahead of the rails' targets. -/
structure WarmStart (v : Nat) (s m : State) : Prop where
  rest : m =
    { s with
      timestamp := 0
      resetn := .low
      sense := v
      sessions := m.sessions
      links := m.links
      rails := m.rails
      allocated := m.allocated
      budgetQueue := m.budgetQueue
      supply := if s.lifecycle = .committed then s.part.supplyAt v else s.supply
      limit := if s.lifecycle = .committed then s.part.limitIn (s.part.evaluated v) else s.limit }
  session : ∀ l : Link, m.session l = (s.session l).gone .detached
  link : ∀ l : Link, m.link l =
    { s.link l with receiver := if (s.link l).receiver = .request then .idle else (s.link l).receiver }
  rail : ∀ r : Rail,
    SameButHolds { (s.rail r).restarted r (s.record r) with suspended := s.flagRestarted v r } (m.rail r)

theorem link_foldl_atWarmReset (ls : List Link) (hn : ls.Nodup) (s : State) (m : Link) :
    (ls.foldl (fun t l =>
      (t.modSession l fun x => x.tornDown .detached).modLink l fun x => { x with receiver := x.receiver.atWarmReset }) s).link
        m = if m ∈ ls then { s.link m with receiver := (s.link m).receiver.atWarmReset } else s.link m := by
  induction ls generalizing s with
  | nil => rfl
  | cons l ls ih =>
    obtain ⟨hl, hn⟩ := List.nodup_cons.mp hn
    have hfirst : ((s.modSession l fun x => x.tornDown .detached).modLink l fun x =>
        { x with receiver := x.receiver.atWarmReset }).link m =
          if m = l then { s.link m with receiver := (s.link m).receiver.atWarmReset } else s.link m := by
      rw [State.link_modLink]
      split
      · next h => rw [h]; rfl
      · rfl
    rw [List.foldl_cons, ih hn, hfirst]
    by_cases hml : m = l
    · rw [if_pos hml, if_neg (hml ▸ hl), if_pos (List.mem_cons.mpr (.inl hml))]
    · simp only [hml, if_false, List.mem_cons, false_or]

theorem Receiver.atWarmReset_eq (x : Receiver) : x.atWarmReset = if x = .request then .idle else x := by
  cases x <;> rfl

theorem link_forgetMasters (s : State) (l : Link) : s.forgetMasters.link l =
    { s.link l with receiver := if (s.link l).receiver = .request then .idle else (s.link l).receiver } := by
  unfold State.forgetMasters
  rw [link_foldl_atWarmReset allLinks (List.nodup_finRange 4), if_pos (mem_allLinks l), ← Receiver.atWarmReset_eq]
  rfl

theorem warmStart (v : Nat) (s : State) : WarmStart v s (restartSupply v s.forgetMasters.restartRails) := by
  have hrest := forgetMasters_rest s
  have hsession := session_forgetMasters s
  have hlink := link_forgetMasters s
  have hrail := rail_forgetMasters s
  generalize s.forgetMasters = a at hrest hsession hlink hrail
  have ho := onlyRails_restartRails a
  have hrestarted := rail_restartRails a
  have hsuspended := suspended_restartRails a
  have hrecord : ∀ r, a.record r = s.record r := State.record_of_records_eq (by rw [hrest])
  have hpart : a.part = s.part := by rw [hrest]
  have hlife : a.lifecycle = s.lifecycle := by rw [hrest]
  generalize a.restartRails = b at ho hrestarted hsuspended
  have hbrecord (r : Rail) : b.record r = s.record r := (ho.record r).trans (hrecord r)
  have hbpart : b.part = s.part := ho.part.trans hpart
  have hblife : b.lifecycle = s.lifecycle := ho.lifecycle.trans hlife
  have hb : b = { s with
      timestamp := 0, resetn := .low, sessions := a.sessions, links := a.links, rails := b.rails
      allocated := b.allocated, budgetQueue := b.budgetQueue } := by
    rw [ho, hrest]
  unfold restartSupply
  rw [hblife]
  by_cases hc : s.lifecycle = .committed
  · rw [if_pos hc]
    have heval := evaluateSupply_eq v b
    have hevalRail := rail_evaluateSupply v b
    generalize evaluateSupply v b = m at heval hevalRail
    refine ⟨?_, fun l => ?_, fun l => ?_, fun r => ?_⟩
    · rw [heval, if_pos hc, if_pos hc, hbpart, hb]
    · rw [heval]
      exact (ho.session l).trans (hsession l)
    · rw [heval]
      exact (congrArg (fun x : Vector LinkPort 4 => x.get l) (by rw [hb])).trans (hlink l)
    · have hflag : b.flagEvaluated v r = s.flagRestarted v r := by
        unfold State.flagEvaluated State.flagRestarted
        rw [hsuspended, hbpart, hbrecord]
        by_cases h : s.part.evaluated v = .low ∧ (s.record r).defined = true ∧ (s.record r).shedClass = .shed
        · rw [if_pos h, decide_eq_true ⟨hc, h⟩]
        · rw [if_neg h, decide_eq_false fun h' => h h'.2]
      have hr := hrestarted r
      rw [hrail, hrecord] at hr
      rw [hevalRail, hflag, hr]
      rfl
  · rw [if_neg hc]
    refine ⟨?_, fun l => ?_, fun l => ?_, fun r => ?_⟩
    · rw [if_neg hc, if_neg hc, hb]
    · exact (ho.session l).trans (hsession l)
    · exact (congrArg (fun x : Vector LinkPort 4 => x.get l) (by rw [hb])).trans (hlink l)
    · have hr := hrestarted r
      have hs := hsuspended r
      rw [hrail, hrecord] at hr
      have hflag : s.flagRestarted v r = false := decide_eq_false fun h => hc h.1
      rw [hr] at hs
      change SameButHolds _ (b.rail r)
      rw [hflag, hr]
      exact congrArg (fun x => ({ (s.rail r).restarted r (s.record r) with suspended := x, holdSet := (b.rail r).holdSet } : RailRuntime)) hs

end Sys2Proof.Machine
end

section
namespace Sys2Proof.Machine

/-! #### The record of one rail -/

theorem RailRuntime.restarted_of_draining {r : Rail} {rec : RailRecord} {x : RailRuntime} (h : x.state = .draining) :
    x.restarted r rec = x.cleared := by
  unfold RailRuntime.restarted RailRuntime.drainedIfRunning
  rw [if_neg (show ¬ x.cleared.state.running = true by rw [show x.cleared.state = x.state from rfl, h]; nofun)]
  exact if_neg (show ¬ (x.state = .fault ∨ x.state = .waiting) by rw [h]; rintro (h' | h') <;> cases h')

/-- A record that is neither running nor draining stands in OFF. -/
theorem RailRuntime.restarted_of_resting {r : Rail} {rec : RailRecord} {x : RailRuntime} (hr : x.state.running = false)
    (hd : x.state ≠ .draining) : (x.restarted r rec).state = .off ∧ (x.restarted r rec).drainCause = x.drainCause := by
  unfold RailRuntime.restarted RailRuntime.drainedIfRunning
  rw [if_neg (show ¬ x.cleared.state.running = true by rw [show x.cleared.state = x.state from rfl, hr]; nofun)]
  unfold RailRuntime.restartedIfIdle
  split
  · exact ⟨rfl, rfl⟩
  · next h =>
    refine ⟨?_, rfl⟩
    have h : ¬ (x.state = .fault ∨ x.state = .waiting) := h
    change x.state = .off
    cases hx : x.state <;> simp_all [RailState.running]

theorem RailRuntime.restarted_cleared (r : Rail) (rec : RailRecord) (x : RailRuntime) :
    (x.restarted r rec).faultLatch = false ∧ (x.restarted r rec).faultKind = none ∧ (x.restarted r rec).faultCount = 0
      ∧ (x.restarted r rec).claims = .replicate 4 0 ∧ (x.restarted r rec).pg = x.pg := by
  unfold RailRuntime.restarted RailRuntime.restartedIfIdle RailRuntime.drainedIfRunning
  split <;> split <;> exact ⟨rfl, rfl, rfl, rfl, rfl⟩

section
variable {v : Nat} {s m : State}

theorem WarmStart.onlyAims (h : WarmStart v s m) (r : Rail) :
    OnlyAims { (s.rail r).restarted r (s.record r) with suspended := s.flagRestarted v r } (m.rail r) := (h.rail r).onlyAims

theorem WarmStart.record (h : WarmStart v s m) (r : Rail) : m.record r = s.record r :=
  State.record_of_records_eq (by rw [h.rest]) r

theorem WarmStart.isParent (h : WarmStart v s m) (p c : Rail) : m.isParent p c = s.isParent p c := by
  unfold State.isParent State.parentsOf
  rw [h.record]

theorem WarmStart.state (h : WarmStart v s m) (r : Rail) :
    (m.rail r).state = ((s.rail r).restarted r (s.record r)).state := (h.rail r).state

theorem WarmStart.cleared (h : WarmStart v s m) (r : Rail) :
    (m.rail r).faultLatch = false ∧ (m.rail r).faultKind = none ∧ (m.rail r).faultCount = 0
      ∧ (m.rail r).claims = .replicate 4 0 ∧ (m.rail r).pg = (s.rail r).pg ∧ (m.rail r).suspended = s.flagRestarted v r := by
  obtain ⟨hlatch, hkind, hcount, hclaims, hpg⟩ := (s.rail r).restarted_cleared r (s.record r)
  rw [h.onlyAims r]
  exact ⟨hlatch, hkind, hcount, hclaims, hpg, rfl⟩

theorem WarmStart.cause (h : WarmStart v s m) (r : Rail) :
    (m.rail r).drainCause = ((s.rail r).restarted r (s.record r)).drainCause := by
  rw [h.onlyAims r]

/-- A rail that drains is left in its drain; any other that does not run is in OFF. -/
theorem WarmStart.draining_iff (h : WarmStart v s m) (r : Rail) :
    (m.rail r).state = .draining ↔ (s.rail r).state.running = true ∨ (s.rail r).state = .draining := by
  rw [h.state]
  cases hrun : (s.rail r).state.running with
  | true =>
    rw [RailRuntime.restarted_of_running hrun]
    exact ⟨fun _ => .inl rfl, fun _ => rfl⟩
  | false =>
    by_cases hd : (s.rail r).state = .draining
    · rw [RailRuntime.restarted_of_draining hd]
      exact ⟨fun _ => .inr hd, fun _ => hd⟩
    · rw [(RailRuntime.restarted_of_resting hrun hd).1]
      exact ⟨nofun, fun h => h.elim (fun h => absurd h Bool.false_ne_true) fun h => absurd h hd⟩

theorem WarmStart.off (h : WarmStart v s m) {r : Rail} (hr : (m.rail r).state ≠ .draining) : (m.rail r).state = .off := by
  have hnot := mt (h.draining_iff r).mpr hr
  rw [h.state]
  exact (RailRuntime.restarted_of_resting (Bool.eq_false_iff.mpr fun hrun => hnot (.inl hrun)) fun hd => hnot (.inr hd)).1

/-- A drain marked finished still waits for a draining child. -/
theorem WarmStart.finished (h : WarmStart v s m) (hs : Coherent s) {r : Rail} (hr : (m.rail r).state = .draining)
    (hf : (m.rail r).drainFinished = true) : ∃ c, m.isParent r c = true ∧ (m.rail c).state = .draining := by
  have hfinished : ((s.rail r).restarted r (s.record r)).drainFinished = true := by
    rw [← hf, h.onlyAims r]
  have hd : (s.rail r).state = .draining := by
    refine ((h.draining_iff r).mp hr).resolve_left fun hrun => ?_
    rw [RailRuntime.restarted_of_running hrun] at hfinished
    cases hfinished
  rw [RailRuntime.restarted_of_draining hd] at hfinished
  obtain ⟨c, hc, hcd⟩ := (s.heldByDraining_iff r).mp (hs.settled.finished r hfinished)
  rw [hs.holds r c, Bool.and_eq_true] at hc
  exact ⟨c, (h.isParent r c).trans hc.1, (h.draining_iff c).mpr (.inr hcd)⟩

end

/-! #### Drains that go on -/

/-- A drain that a draining child waits on goes on. -/
theorem Move.onlyAims_of_held {s t : State} (h : Move s t) {q : Rail} (hq : (s.rail q).state = .draining)
    (hheld : s.heldByDraining q = true) : OnlyAims (s.rail q) (t.rail q) := by
  have other {r : Rail} {y : RailRuntime} (hb : Becomes s t r y) (hr : (s.rail r).state ≠ .draining) :
      OnlyAims (s.rail q) (t.rail q) := (hb.other (by rintro rfl; exact hr hq)).onlyAims
  cases h.railMove with
  | same hsame => rw [hsame]; exact .refl _
  | target r hb =>
    by_cases hqr : q = r
    · subst hqr
      have hy := hb.self
      unfold SameButHolds at hy
      rw [hy]
      rfl
    · exact (hb.other hqr).onlyAims
  | wait r hs _ hb => exact other hb (by rw [hs]; nofun)
  | unwait r hs _ hb => exact other hb (by rw [hs]; nofun)
  | drain r c hs hb => exact other hb fun h => by rw [h] at hs; cases hs
  | slewDown r hs _ _ hb => exact other hb (by rw [hs]; nofun)
  | drained r _ _ hd hb =>
    refine (hb.other ?_).onlyAims
    rintro rfl
    exact Bool.false_ne_true (hd.symm.trans hheld)
  | start r n hreq _ hb => exact other hb (by rw [State.waiting_of_start hreq]; nofun)
  | backfeed r n hreq _ _ hb => exact other hb (by rw [State.waiting_of_start hreq]; nofun)
  | raise r n hreq _ hb => exact other hb (by rw [State.on_of_raise hreq]; nofun)
  | wholeFall r level hs _ hb => exact other hb (by rw [hs]; nofun)

/-- Every drain of `m` goes on in `t`, its record as it was but for its target and its holds. -/
structure DrainsGoOn (m t : State) : Prop where
  holds : HoldsExact t
  only : OnlyRails m t
  rails : ∀ q, (m.rail q).state = .draining → OnlyAims (m.rail q) (t.rail q)

/-- Where each drain marked finished waits for a draining child, the drains go on through every move. -/
theorem Moves.drainsGoOn {m t : State} (h : Moves m t) (hs : HoldsExact m)
    (hf : ∀ q, (m.rail q).state = .draining → (m.rail q).drainFinished = true →
      ∃ c, m.isParent q c = true ∧ (m.rail c).state = .draining) : DrainsGoOn m t := by
  refine h.keep (I := DrainsGoOn m) (fun a b hmove ha => ⟨hmove.holds ha.holds, ha.only.trans hmove.onlyRails, fun q hq => ?_⟩)
    ⟨hs, .refl m, fun q _ => .refl _⟩
  have haims := ha.rails q hq
  refine haims.trans ?_
  have hdraining : (a.rail q).state = .draining := haims.state.trans hq
  cases hfin : (m.rail q).drainFinished with
  | false => exact (hmove.railStep q).of_frozen (.inr ⟨hdraining, haims.drainFinished.trans hfin⟩)
  | true =>
    obtain ⟨c, hparent, hc⟩ := hf q hq hfin
    have hca : (a.rail c).state = .draining := (ha.rails c hc).state.trans hc
    refine hmove.onlyAims_of_held hdraining ((a.heldByDraining_iff q).mpr ⟨c, ?_, hca⟩)
    rw [ha.holds q c, State.isParent_of_onlyRails ha.only, hparent, hca]
    rfl

/-! #### Rails that stay below a rail that is not up -/

/-- No rail is up, and rail `c` has not been started. -/
structure Unstarted (m : State) (c : Rail) (t : State) : Prop where
  only : OnlyRails m t
  down : ∀ q, (t.rail q).state.up = false
  rail : (t.rail c).state ≠ .ramping ∧ (t.rail c).state ≠ .fault

theorem RailStep.down {r : Rail} {rec : RailRecord} {asks : Option (GrantKind × Nat)} {x y : RailRuntime}
    (h : RailStep r rec asks x y) (hx : x.state.up = false) : y.state.up = false := by
  have hon {z : RailRuntime} (hz : z.state = .on) (hx : z.state.up = false) : y.state.up = false := by
    rw [hz] at hx
    cases hx
  cases h with
  | aims h => rwa [h.state]
  | wait _ _ h => rw [h.state]; rfl
  | unwait _ _ h => rw [h.state]; rfl
  | drain c _ h => rw [h.state]; rfl
  | slewDown hs => exact hon hs hx
  | drained _ _ h =>
    rw [h.state, state_toDrained]
    split <;> rfl
  | start n _ _ _ h => rw [h.state]; rfl
  | backfeed n _ _ _ _ h => rw [h.state]; rfl
  | raise n _ _ hs => exact hon hs hx
  | wholeFall level _ _ h => rw [h.state]; rfl

/-- Where no rail is up, a rail with a parent is not granted its START (R24). -/
theorem Moves.unstarted {m t : State} (h : Moves m t) {p c : Rail} (hp : m.isParent p c = true)
    (hdown : ∀ q, (m.rail q).state.up = false) (hc : (m.rail c).state ≠ .ramping ∧ (m.rail c).state ≠ .fault) :
    Unstarted m c t := by
  refine h.keep (I := Unstarted m c) (fun a b hmove ha => ⟨ha.only.trans hmove.onlyRails, fun q => (hmove.railStep q).down (ha.down q), ?_⟩)
    ⟨.refl m, hdown, hc⟩
  have hnever {n : Nat} : a.requestOf c ≠ some (.start, n) := fun hreq => by
    have hready := ((a.ready_iff c).mp ((a.requestOf_eq_start_iff c n).mp hreq).1).2.1 p
      ((a.mem_parentsOf_iff p c).mpr ((State.isParent_of_onlyRails ha.only p c).trans hp))
    have hup := (RailState.up_iff _).mpr hready
    rw [ha.down p] at hup
    cases hup
  have hset {x : RailState} (h : (b.rail c).state = x) (hx : x ≠ .ramping ∧ x ≠ .fault) :
      (b.rail c).state ≠ .ramping ∧ (b.rail c).state ≠ .fault := by rwa [h]
  cases hmove.railStep c with
  | aims h => exact hset h.state ha.rail
  | wait _ _ h => exact hset h.state ⟨nofun, nofun⟩
  | unwait _ _ h => exact hset h.state ⟨nofun, nofun⟩
  | drain d _ h => exact hset h.state ⟨nofun, nofun⟩
  | slewDown _ _ _ h => exact hset h.state ⟨nofun, nofun⟩
  | drained _ _ h =>
    refine hset (h.state.trans (state_toDrained ..)) ?_
    split <;> exact ⟨nofun, nofun⟩
  | start n hreq => exact absurd hreq hnever
  | backfeed n hreq => exact absurd hreq hnever
  | raise n _ _ _ _ h => exact hset h.state ⟨nofun, nofun⟩
  | wholeFall level _ _ h => exact hset h.state ⟨nofun, nofun⟩

end Sys2Proof.Machine
end

section
namespace Sys2Proof.Machine

/-! #### Rails that stand in OFF -/

/-- Every rail on a parent list of a committed part is defined (R169). -/
theorem Coherent.defined_of_isParent {s : State} (hs : Coherent s) (hc : s.lifecycle = .committed) {p c : Rail}
    (hp : s.isParent p c = true) : (s.record p).defined = true := by
  have hfault := hs.table.passes hc
  have hmem : p ∈ s.parentsOf c := (s.mem_parentsOf_iff p c).mpr hp
  have hd : (s.record c).defined = true := Classical.byContradiction fun hnot => by
    unfold State.parentsOf at hmem
    rw [if_neg hnot] at hmem
    cases hmem
  unfold State.parentsOf RailRecord.parentRails at hmem
  rw [if_pos hd] at hmem
  obtain ⟨b, hb, hbp⟩ := List.mem_filterMap.mp hmem
  have hpart := partFault_eq_none_of_commitFault hfault
  rw [commitFault_of_defined hpart hd] at hfault
  have hrail : railFaultAt s c = none := by
    split at hfault
    · cases hfault
    · next hnone => exact Option.map_eq_none_iff.mp (List.findSome?_eq_none_iff.mp hnone c (mem_allRails c))
  obtain ⟨-, -, hparents, -⟩ := (railFaultAt_eq_none_iff s c).mp hrail hd
  obtain ⟨q, hq, hqd, -⟩ := ((parentsOk_iff s c _).mp hparents).2.1 b hb
  split at hbp
  · have hqp : q = p := by
      rw [← Option.some.inj hbp]
      exact Fin.ext hq.symm
    rwa [hqp] at hqd
  · cases hbp

/-- A rail that no session claims has a target where a child holds it alone (R53, R60). -/
theorem State.holder_of_targetFor {s : State} {r : Rail} (h : s.targetFor r ≠ 0) (hclaims : (s.rail r).claims = .replicate 4 0) :
    ∃ c, (s.rail r).holdSet.get c = true := by
  have hdemand : (s.rail r).effectiveDemand = 0 := by
    unfold RailRuntime.effectiveDemand RailRuntime.claimDemand
    rw [hclaims]
    exact ite_self _
  unfold State.targetFor RailRuntime.demandedTarget at h
  rw [if_pos hdemand] at h
  have hheld : (s.rail r).isHeld = true := Classical.byContradiction fun hnot => h (by rw [if_neg hnot, ite_self])
  obtain ⟨c, -, hc⟩ := List.any_eq_true.mp hheld
  exact ⟨c, hc⟩

section
variable {v : Nat} {s m : State} (h : WarmStart v s m) (hs : Coherent s) (hm : Calm m)
include h hs hm

theorem WarmStart.drainsGoOn {t : State} (ht : Moves m t) : DrainsGoOn m t :=
  ht.drainsGoOn hm.holds fun _ hq hf => h.finished hs hq hf

theorem WarmStart.drains_railTurn {r : Rail} (hr : (m.rail r).state = .draining) :
    OnlyAims (m.rail r) ((railTurn none [] ⟨m, []⟩).rail r) := by
  rw [rail_railTurn]
  exact (h.drainsGoOn hs hm ((moves_railEvent ⟨m, []⟩).trans (moves_granted m _))).rails r hr

omit hs in
/-- The rails in OFF stay there, or go on to WAITING, ahead of the grants. -/
theorem WarmStart.resting {r : Rail} (hr : (m.rail r).state ≠ .draining) :
    ((railEvent ⟨m, []⟩).st.rail r).state = .off ∨ ((railEvent ⟨m, []⟩).st.rail r).state = .waiting := by
  have hoff := h.off hr
  have hturn : TurnOf r (m.record r) (m.rail r) ((railEvent ⟨m, []⟩).st.rail r) := turnOf_settle (e := ⟨m, []⟩) hm r
  generalize (railEvent ⟨m, []⟩).st.rail r = y at hturn
  cases hturn with
  | acted hy =>
    rw [hy.state]
    unfold RailRuntime.taking RailRuntime.acts
    dsimp only
    rw [hoff]
    dsimp only
    split
    · exact .inl rfl
    · exact .inr rfl
  | drained hd => exact absurd hd hr

theorem WarmStart.down (q : Rail) : ((railEvent ⟨m, []⟩).st.rail q).state.up = false := by
  by_cases hq : (m.rail q).state = .draining
  · rw [((h.drainsGoOn hs hm (moves_railEvent ⟨m, []⟩)).rails q hq).state, hq]
    rfl
  · rcases h.resting hm hq with hx | hx <;> rw [hx] <;> rfl

/-- A rail that has come to WAITING is still held at the end of the reset: its child is not granted before it. -/
theorem WarmStart.held_of_waiting {r : Rail} (hr : ((railEvent ⟨m, []⟩).st.rail r).state = .waiting) :
    ∃ c, ((railTurn none [] ⟨m, []⟩).rail r).holdSet.get c = true := by
  have hfirm := firm_railEvent hm []
  have hclaims : ((railEvent ⟨m, []⟩).st.rail r).claims = .replicate 4 0 :=
    ((moves_railEvent ⟨m, []⟩).inputs r).1.trans (h.cleared r).2.2.2.1
  have htarget : (railEvent ⟨m, []⟩).st.targetFor r ≠ 0 := by
    rw [← (hfirm.aimed r).target]
    exact (hfirm.acted r).waiting hr
  obtain ⟨c, hc⟩ := State.holder_of_targetFor htarget hclaims
  rw [hfirm.holds r c, Bool.and_eq_true] at hc
  obtain ⟨hparent, hholding⟩ := hc
  have hdown := h.down hs hm
  have hrest : ((railEvent ⟨m, []⟩).st.rail c).state ≠ .ramping ∧ ((railEvent ⟨m, []⟩).st.rail c).state ≠ .fault := by
    refine ⟨?_, fun hf => by rw [hf] at hholding; cases hholding⟩
    by_cases hq : (m.rail c).state = .draining
    · rw [((h.drainsGoOn hs hm (moves_railEvent ⟨m, []⟩)).rails c hq).state, hq]
      nofun
    · rcases h.resting hm hq with hx | hx <;> rw [hx] <;> nofun
  have hunstarted := (moves_granted m (railEvent ⟨m, []⟩)).unstarted hparent hdown hrest
  have hkept := low_railEvent hm [] (hdown c)
  have hend := rail_railTurn none [] [] m c
  have hholds := (steady_railTurn hm none [] []).holds
  have hparents : (railTurn none [] ⟨m, []⟩).isParent r c = true := by
    have hrecords : (railTurn none [] ⟨m, []⟩).records = m.records := by rw [(reaction_railTurn none [] ⟨m, []⟩).rest]
    have h1 := State.isParent_of_onlyRails (onlyRails_railEvent ⟨m, []⟩) r c
    rw [hparent] at h1
    unfold State.isParent State.parentsOf at h1 ⊢
    rw [State.record_of_records_eq hrecords]
    exact h1.symm
  refine ⟨c, ?_⟩
  rw [hholds r c, hparents, hend]
  cases hkept with
  | same he _ => rw [he, hholding]; rfl
  | granted n _ hat _ =>
    rcases hat.state with hx | hx
    · exact absurd hx hunstarted.rail.1
    · exact absurd hx hunstarted.rail.2

/-- The state in which a warm reset leaves a rail that neither ran nor drained. -/
theorem WarmStart.resting_railTurn (hc : m.lifecycle = .committed) (ht : Coherent (railTurn none [] ⟨m, []⟩)) {r : Rail}
    (hr : (m.rail r).state ≠ .draining) :
    ((∀ c, ((railTurn none [] ⟨m, []⟩).rail r).holdSet.get c = false) →
        ((railTurn none [] ⟨m, []⟩).rail r).state = .off ∧ ((railTurn none [] ⟨m, []⟩).rail r).held = 0)
      ∧ ((∃ c, ((railTurn none [] ⟨m, []⟩).rail r).holdSet.get c = true) →
        ((railTurn none [] ⟨m, []⟩).rail r).state = .waiting ∨ ((railTurn none [] ⟨m, []⟩).rail r).state = .ramping
          ∨ ((railTurn none [] ⟨m, []⟩).rail r).state = .fault)
      ∧ ((railTurn none [] ⟨m, []⟩).rail r).state ≠ .draining := by
  have hkept := low_railEvent hm [] (h.down hs hm r)
  have hresting := h.resting hm hr
  have hheld := h.held_of_waiting hs hm (r := r)
  have hend := rail_railTurn none [] [] m r
  have hlife : (railTurn none [] ⟨m, []⟩).lifecycle = .committed := by
    rw [(reaction_railTurn none [] ⟨m, []⟩).rest]
    exact hc
  generalize (railTurn none [] ⟨m, []⟩) = t at hheld hend hlife ht ⊢
  have hstates : (t.rail r).state = .off ∧ ((railEvent ⟨m, []⟩).st.rail r).state = .off
      ∨ ((railEvent ⟨m, []⟩).st.rail r).state = .waiting
        ∧ ((t.rail r).state = .waiting ∨ (t.rail r).state = .ramping ∨ (t.rail r).state = .fault) := by
    rw [hend]
    cases hkept with
    | same he _ =>
      rw [he]
      exact hresting.imp (fun h => ⟨h, h⟩) fun h => ⟨h, .inl h⟩
    | granted n hw hat _ => exact .inr ⟨hw, .inr hat.state⟩
  refine ⟨fun hnone => ?_, fun ⟨c, hcr⟩ => ?_, ?_⟩
  · have hoff : (t.rail r).state = .off := by
      rcases hstates with ⟨hoff, -⟩ | ⟨hw, -⟩
      · exact hoff
      · obtain ⟨c, hcr⟩ := hheld hw
        rw [hnone c] at hcr
        cases hcr
    exact ⟨hoff, ((ht.shape r).unpowered (.inl hoff)).2⟩
  · rcases hstates with ⟨hoff, -⟩ | ⟨-, hon⟩
    · have hzero : t.targetFor r = 0 := (ht.settled.target r).symm.trans (ht.settled.off r hoff)
      have hparent : t.isParent r c = true := by
        have hcr := hcr
        rw [ht.holds r c, Bool.and_eq_true] at hcr
        exact hcr.1
      have hnot := RailRuntime.holdSet_of_isHeld (State.isHeld_of_targetFor hzero (ht.defined_of_isParent hlife hparent)) c
      rw [hcr] at hnot
      cases hnot
    · exact hon
  · rcases hstates with ⟨hx, -⟩ | ⟨-, hx | hx | hx⟩ <;> rw [hx] <;> nofun

end

end Sys2Proof.Machine
end

section
namespace Sys2Proof.Machine

/-! #### The reset as a whole -/

/-- The record of a rail at the end of a warm reset (R50, R60). -/
structure RailRestarted (s t : State) (r : Rail) : Prop where
  claims : ∀ l : Link, t.claim l r = 0
  pg : (t.rail r).pg = (s.rail r).pg
  fault : (t.rail r).state ≠ .fault →
    (t.rail r).faultLatch = false ∧ (t.rail r).faultKind = none ∧ (t.rail r).faultCount = 0
  ran : (s.rail r).state.running = true →
    (t.rail r).state = .draining ∧ (t.rail r).drainCause = .restart ∧ (t.rail r).level = (s.rail r).level
      ∧ (t.rail r).held = (s.record r).costOf (s.rail r).level ∧ (t.rail r).en = .low
      ∧ (t.rail r).timer = .running (s.record r).drainTime.toNat
  drained : (s.rail r).state = .draining →
    (t.rail r).state = .draining ∧ (t.rail r).drainCause = (s.rail r).drainCause ∧ (t.rail r).timer = (s.rail r).timer
      ∧ (t.rail r).drainFinished = (s.rail r).drainFinished ∧ (t.rail r).held = (s.rail r).held
      ∧ (t.rail r).level = (s.rail r).level
  rested : (s.rail r).state ≠ .draining → (s.rail r).state.running = false →
    (t.rail r).drainCause = (s.rail r).drainCause
      ∧ ((∀ c : Rail, (t.rail r).holdSet.get c = false) → (t.rail r).state = .off ∧ (t.rail r).held = 0)
      ∧ ((∃ c : Rail, (t.rail r).holdSet.get c = true) →
        (t.rail r).state = .waiting ∨ (t.rail r).state = .ramping ∨ (t.rail r).state = .fault)

theorem WarmStart.restarted_of_committed {v : Nat} {s m : State} (h : WarmStart v s m) (hs : Coherent s) (hm : Calm m)
    (hc : m.lifecycle = .committed) (ht : Coherent (railTurn none [] ⟨m, []⟩)) (r : Rail) :
    RailRestarted s (railTurn none [] ⟨m, []⟩) r := by
  have hreaction := reaction_railTurn none [] ⟨m, []⟩
  have hdrains := h.drains_railTurn hs hm (r := r)
  have hresting := h.resting_railTurn hs hm hc ht (r := r)
  obtain ⟨hlatch, hkind, hcount, hclaims, hpg, -⟩ := h.cleared r
  have hstart := h.onlyAims r
  have hiff := h.draining_iff r
  have hcause := h.cause r
  dsimp only at hreaction
  generalize (railTurn none [] ⟨m, []⟩) = t at hreaction hdrains hresting
  refine ⟨fun l => ?_, (hreaction.pg r).trans hpg, fun hf => ?_, fun hrun => ?_, fun hd => ?_, fun hd hrun => ?_⟩
  · unfold State.claim
    rw [hreaction.claims, hclaims]
    exact get_replicate ..
  · rcases hreaction.fault r with ⟨h1, h2, h3⟩ | ⟨h1, -⟩
    · exact ⟨h1.trans hlatch, h2.trans hkind, h3.trans hcount⟩
    · exact absurd h1 hf
  · have haims := hdrains (hiff.mpr (.inl hrun))
    rw [RailRuntime.restarted_of_running hrun] at hstart
    rw [haims, hstart]
    exact ⟨rfl, rfl, rfl, (hs.rail_sized r).trimmed_eq (.inl hrun), rfl, rfl⟩
  · have haims := hdrains (hiff.mpr (.inr hd))
    rw [RailRuntime.restarted_of_draining hd] at hstart
    rw [haims, hstart]
    exact ⟨hd, rfl, rfl, rfl, rfl, rfl⟩
  · obtain ⟨hoff, hon, hnot⟩ := hresting (mt hiff.mp fun h' => h'.elim (fun h' => Bool.false_ne_true (hrun.symm.trans h')) hd)
    refine ⟨((hreaction.cause r).resolve_right hnot).trans ?_, hoff, hon⟩
    exact hcause.trans (RailRuntime.restarted_of_resting hrun hd).2

theorem WarmStart.restarted_of_idle {v : Nat} {s m : State} (h : WarmStart v s m) (hs : Idle s)
    (ht : Idle (railTurn none [] ⟨m, []⟩)) (r : Rail) : RailRestarted s (railTurn none [] ⟨m, []⟩) r := by
  have hreaction := reaction_railTurn none [] ⟨m, []⟩
  obtain ⟨-, -, -, -, hpg, -⟩ := h.cleared r
  have hcause := h.cause r
  have hoff := hs.state r
  dsimp only at hreaction
  generalize (railTurn none [] ⟨m, []⟩) = t at hreaction ht
  have hrail := ht.rails r
  refine ⟨fun l => ht.claim l r, (hreaction.pg r).trans hpg, fun _ => ?_, fun hrun => ?_, fun hd => ?_, fun hd hrun => ?_⟩
  · rw [hrail]
    exact ⟨rfl, rfl, rfl⟩
  · rw [hoff] at hrun
    cases hrun
  · exact absurd (hoff.symm.trans hd) nofun
  · refine ⟨((hreaction.cause r).resolve_right (by rw [ht.state r]; nofun)).trans
      (hcause.trans (RailRuntime.restarted_of_resting hrun hd).2), fun _ => ⟨ht.state r, by rw [hrail]; rfl⟩, fun ⟨c, hc⟩ => ?_⟩
    have hheld := RailRuntime.holdSet_of_isHeld (ht.isHeld r) c
    rw [hc] at hheld
    cases hheld

theorem warmReset_eq {s : State} (hs : s.resetn = .high) (v : Nat) :
    warmReset v s = railTurn none [] ⟨restartSupply v s.forgetMasters.restartRails, []⟩ :=
  if_neg (by rw [hs]; nofun)

theorem railRestarted_warmReset {s : State} (hs : Coherent s) (v : Nat) (hhigh : s.resetn = .high) (r : Rail) :
    RailRestarted s (warmReset v s) r := by
  have hstart := warmStart v s
  have ht : Coherent (warmReset v s) := coherent_of_exec (c := .warmReset v) hs rfl
  cases hc : s.lifecycle with
  | uncommitted =>
    have hidle := (idleBeforeCommit_iff s).mp hs.idle hc
    have hend := hidle.warmReset hc v
    rw [warmReset_eq hhigh] at hend ⊢
    exact hstart.restarted_of_idle hidle hend r
  | committed =>
    have hcalm : Calm s.forgetMasters := by
      have hsteady : Steady s := ⟨hs.calm hc, hs.aimed⟩
      have hrest := forgetMasters_rest s
      generalize s.forgetMasters = a at hrest
      exact (hsteady.of_same (by rw [hrest]) (by rw [hrest])).toCalm
    have hm := calm_restartSupply (calm_restartRails hcalm) v
    have hlife : (restartSupply v s.forgetMasters.restartRails).lifecycle = .committed := by
      rw [hstart.rest]
      exact hc
    rw [warmReset_eq hhigh] at ht ⊢
    exact hstart.restarted_of_committed hs hm hlife ht r

/-- Settles O53. -/
theorem warmResetRestartsTheRails : Obligations.WarmResetRestartsTheRails := by
  intro s v hs hhigh
  refine ⟨warmReset v s, rfl, ?_⟩
  have hrails := railRestarted_warmReset hs v hhigh
  have hactive := hs.supply.active
  have hstart := warmStart v s
  rw [warmReset_eq hhigh] at hrails ⊢
  have hreaction := reaction_railTurn none [] ⟨restartSupply v s.forgetMasters.restartRails, []⟩
  dsimp only at hreaction
  generalize (railTurn none [] ⟨restartSupply v s.forgetMasters.restartRails, []⟩) = t at hrails hreaction ⊢
  generalize (restartSupply v s.forgetMasters.restartRails) = m at hstart hreaction
  have hrest := hreaction.rest
  have hmrest := hstart.rest
  have hsupply : t.supply = if s.lifecycle = .committed then s.part.supplyAt v else s.supply := by rw [hrest, hmrest]
  have hlimit : t.limit = if s.lifecycle = .committed then s.part.limitIn (s.part.evaluated v) else s.limit := by
    rw [hrest, hmrest]
  refine ⟨by rw [hrest, hmrest], by rw [hrest, hmrest], by rw [hrest, hmrest], by rw [hrest, hmrest], by rw [hrest, hmrest],
    by rw [hrest, hmrest], fun l => ⟨?_, ?_⟩, fun hu => ?_, fun hc => ?_, fun r => ?_⟩
  · have hsession := hstart.session l
    rw [hreaction.unattached l (by rw [hsession]; nofun), hsession]
  · have hlink : t.link l = m.link l := by
      rw [hrest]
      rfl
    exact hlink.trans (hstart.link l)
  · rw [hsupply, hlimit, if_neg (by rw [hu]; nofun), if_neg (by rw [hu]; nofun)]
    exact ⟨rfl, rfl⟩
  · rw [hsupply, hlimit, if_pos hc, if_pos hc]
    exact ⟨rfl, rfl, rfl, rfl, rfl, rfl⟩
  · obtain ⟨-, -, -, -, -, hflag⟩ := hstart.cleared r
    have hr := hrails r
    refine ⟨hr.claims, hr.pg, hr.fault, ?_, hr.ran, hr.drained, hr.rested⟩
    rw [hreaction.suspended, hflag, hsupply]
    unfold State.flagRestarted
    rw [decide_eq_true_iff]
    by_cases hc : s.lifecycle = .committed
    · rw [if_pos hc]
      exact ⟨fun ⟨_, h⟩ => ⟨rfl, h⟩, fun ⟨_, h⟩ => ⟨hc, h⟩⟩
    · rw [if_neg hc]
      exact ⟨fun h => absurd h.1 hc, fun h => absurd (hactive.mp h.1) hc⟩

end Sys2Proof.Machine
end

/-! ### What an event announces anew (R103, R157) -/

section
namespace Sys2Proof.Machine

/-- An announcement that an event may make in reaching `s`: no entry into ON, and an entry into FAULT of a rail that is there. -/
def News (s : State) (a : Announcement) : Prop :=
  ∀ r, (∀ n, a ≠ .enteredOn r n) ∧ ∀ k, a = .enteredFault r k → (s.rail r).state = .fault

/-- From `e` to `e'` only news is announced. -/
def Tells (e e' : Event) : Prop := ∀ a ∈ e'.log, a ∈ e.log ∨ News e'.st a

theorem News.moves {s t : State} {a : Announcement} (h : News s a) (hm : Moves s t) : News t a := fun r =>
  ⟨(h r).1, fun k hk => (hm.onlyAims_of_frozen (.inl ((h r).2 k hk))).state.trans ((h r).2 k hk)⟩

theorem News.of_eq {s : State} {a b : Announcement} (h : News s b) (he : a = b) : News s a := he ▸ h

theorem news_targetRose (s : State) (q : Rail) : News s (.targetRose q) := fun _ => ⟨nofun, nofun⟩

theorem news_enteredOff (s : State) (q : Rail) : News s (.enteredOff q) := fun _ => ⟨nofun, nofun⟩

theorem news_forcedOff (s : State) (q : Rail) (k : FaultKind) : News s (.forcedOff q k) := fun _ => ⟨nofun, nofun⟩

theorem news_enteredFault {s : State} {q : Rail} {k : FaultKind} (h : (s.rail q).state = .fault) :
    News s (.enteredFault q k) := fun r =>
  ⟨nofun, fun k' hk => by
    cases hk
    exact h⟩

theorem Tells.refl (e : Event) : Tells e e := fun _ h => .inl h

theorem Tells.of_log {e e' : Event} (h : e'.log = e.log) : Tells e e' := fun _ ha => .inl (h ▸ ha)

theorem Tells.trans {e e' e'' : Event} (h : Tells e e') (hm : Moves e'.st e''.st) (h' : Tells e' e'') : Tells e e'' :=
  fun a ha => (h' a ha).elim (fun ha => (h a ha).imp_right fun hn => hn.moves hm) .inr

theorem Tells.foldl {α : Type} {f : Event → α → Event} (hm : ∀ e a, Moves e.st (f e a).st) (h : ∀ e a, Tells e (f e a))
    (xs : List α) (e : Event) : Tells e (xs.foldl f e) := by
  induction xs generalizing e with
  | nil => exact .refl e
  | cons a xs ih => exact (h e a).trans (.foldl_event hm xs (f e a)) (ih _)

theorem tells_takeTurn (e : Event) (r : Rail) : Tells e (takeTurn e r) := by
  intro a ha
  unfold takeTurn at ha ⊢
  have hmid {b : Announcement} (hb : b ∈ (takeTarget r e).log) : b ∈ e.log ∨ b = .targetRose r := by
    rcases log_takeTarget r e with h | h
    · exact .inl (h ▸ hb)
    · rw [h] at hb
      exact (List.mem_append.mp hb).imp_right List.mem_singleton.mp
  rcases log_takeDeferredOff r (takeTarget r e) with h | h
  · rw [h] at ha
    exact (hmid ha).imp_right (news_targetRose _ r).of_eq
  · rw [h] at ha
    rcases List.mem_append.mp ha with ha | ha
    · exact (hmid ha).imp_right (news_targetRose _ r).of_eq
    · exact .inr ((news_enteredOff _ r).of_eq (List.mem_singleton.mp ha))

theorem tells_settle (e : Event) : Tells e (settle e) := by
  rw [settle_eq_foldl]
  exact .foldl moves_takeTurn tells_takeTurn _ e

theorem tells_railEvent (e : Event) : Tells e (railEvent e) := fun a ha => tells_settle e a (mem_of_mem_byRail ha)

theorem tells_settleAfter (e : Event) : Tells e (settleAfter e) := fun a ha => by
  rcases List.mem_append.mp ha with h | h
  · exact .inl h
  · exact (tells_settle { e with log := [] } a (mem_of_mem_byRail h)).elim (fun h => absurd h List.not_mem_nil) .inr

theorem moves_forceOff (k : FaultKind) (e : Event) (r : Rail) : Moves e.st (forceOff k e r).st := by
  unfold forceOff
  split
  · next h => exact (Move.drain e.st r .parentFault h).one
  · exact .refl

theorem tells_forceOff (k : FaultKind) (e : Event) (r : Rail) : Tells e (forceOff k e r) := fun a ha => by
  unfold forceOff at ha
  split at ha
  · exact (List.mem_append.mp ha).imp_right fun h => (news_forcedOff _ r k).of_eq (List.mem_singleton.mp h)
  · exact .inl ha

theorem tells_cascade (k : FaultKind) (n : Nat) (rs : List Rail) (e : Event) : Tells e (cascade k n rs e) := by
  induction n generalizing rs e with
  | zero => exact .refl e
  | succ n ih =>
    unfold cascade
    split
    · exact .refl e
    · exact (Tells.foldl (moves_forceOff k) (tells_forceOff k) _ e).trans (moves_cascade k n _ _) (ih _ _)

theorem tells_faultRail (r : Rail) (k : FaultKind) (e : Event) : Tells e (faultRail r k e) := by
  have hentered : Tells e ((e.mapState fun s => s.enterFault r k).announce (.enteredFault r k)) := fun a ha =>
    (List.mem_append.mp ha).imp_right fun h =>
      (news_enteredFault (becomes_enterFault e.st r k).self.state).of_eq (List.mem_singleton.mp h)
  exact hentered.trans (moves_faultRail r k e)
    ((tells_cascade k _ _ _).trans (moves_settleAfter _) (tells_settleAfter _))

theorem tells_takeWholeFalls (before : State) (e : Event) : Tells e (takeWholeFalls before e) := .of_log rfl

theorem tells_handGrant (before : State) (r : Rail) (k : GrantKind) (n : Nat) (e : Event) : Tells e (handGrant before r k n e) := by
  cases k with
  | raise =>
    rw [handGrant_raise]
    exact .of_log rfl
  | start =>
    by_cases h : e.st.monitored r = true ∧ (e.st.rail r).pg = .high
    · unfold handGrant
      dsimp only
      rw [if_pos ⟨h.1, (e.st.pg_takeBudget r r n).trans h.2⟩]
      have hfault := tells_faultRail r .backfeed (e.mapState fun s => s.takeBudget r n)
      generalize faultRail r .backfeed (e.mapState fun s => s.takeBudget r n) = e1 at hfault ⊢
      have hall : Tells e e1 := fun a ha => (hfault a ha).imp_left fun h => h
      exact hall.trans (moves_takeWholeFalls before e1) (tells_takeWholeFalls before e1)
    · rw [handGrant_start h]
      exact .of_log rfl

/-- The grants of an event announce news alone. -/
theorem tells_granted (before : State) (e : Event) {a : Announcement} (ha : a ∈ (e.granted before).log) :
    News (e.granted before).st a := by
  have h := repeatRounds_keeps (before := before) (P := fun e' => Tells { e with log := [] } e')
    (fun s t log hqueue h b hb => (h b hb).imp_right fun hn r => ⟨(hn r).1, fun k hk => by
      rw [show t.rail r = s.rail r by rw [hqueue]; rfl]
      exact (hn r).2 k hk⟩)
    (fun e' r k n hreq hfits h => h.trans (moves_handGrant before hreq hfits) (tells_handGrant before r k n e'))
    Config.grantRounds (e := { e with log := [] }) (.refl _)
  exact (h a ha).resolve_left List.not_mem_nil

/-- What the sessions are told of an event, but for what was announced before it, is news. -/
theorem tells_told (log : List Announcement) (m : State) {a : Announcement} (ha : a ∈ (railEvent ⟨m, log⟩).told [] m) :
    a ∈ log ∨ News ((railEvent ⟨m, log⟩).granted m).st a := by
  have ha := (List.mem_filter.mp ha).1
  rw [List.nil_append, mem_placeGroups] at ha
  rcases ha with h | h
  · exact (tells_railEvent ⟨m, log⟩ a h).imp_right fun hn => hn.moves (moves_granted m _)
  · exact .inr (tells_granted m _ h)

/-- What was announced before the rails settle is told, where it stands. -/
theorem mem_told {log : List Announcement} {m : State} {a : Announcement} {r : Rail} (hr : a.rail? = some r) (ha : a ∈ log)
    (hstands : a.stands ((railEvent ⟨m, log⟩).granted m).st = true) : a ∈ (railEvent ⟨m, log⟩).told [] m := by
  refine List.mem_filter.mpr ⟨?_, hstands⟩
  rw [List.nil_append, mem_placeGroups]
  refine .inl (mem_byRail hr ?_)
  rw [settle_eq_foldl]
  exact (prefix_foldl_takeTurn _ _).subset ha

end Sys2Proof.Machine
end

/-! ### A running rail through the grants of an event (R35, R54) -/

section
namespace Sys2Proof.Machine

/-! #### What one grant makes of a rail that it is not made to -/

/-- What the whole falls make of the record `x` of a rail: nothing, but where it slews down without a target. -/
inductive FallOf (before x y : RailRuntime) : Prop where
  | kept : SameButHolds x y → FallOf before x y
  | fallen : before.state = .on → x.state = .slewing → x.target = 0 → y.target = 0 → FallOf before x y

theorem fallOf_takeWholeFalls (before : State) (e : Event) (q : Rail) :
    FallOf (before.rail q) (e.st.rail q) ((takeWholeFalls before e).st.rail q) := by
  have hone (x : RailRuntime) (s : State) (r : Rail) (h : FallOf (before.rail q) x (s.rail q)) :
      FallOf (before.rail q) x ((takeWholeFall before s r).rail q) := by
    unfold takeWholeFall
    dsimp only
    split
    · next hfall =>
      obtain ⟨hon, hslew, hzero⟩ := hfall
      have hb := becomes_wholeFall s r (before.rail r).level
      by_cases hqr : q = r
      · subst hqr
        have htarget := hb.self.target.trans hzero
        cases h with
        | kept h => exact .fallen hon (h.state.symm.trans hslew) (h.target.symm.trans hzero) htarget
        | fallen h1 h2 h3 _ => exact .fallen h1 h2 h3 htarget
      · have hsame := hb.other hqr
        cases h with
        | kept h => exact .kept (h.trans hsame)
        | fallen h1 h2 h3 h4 => exact .fallen h1 h2 h3 (hsame.target.trans h4)
    · exact h
  have hfold : ∀ (rs : List Rail) (x : RailRuntime) (s : State), FallOf (before.rail q) x (s.rail q) →
      FallOf (before.rail q) x ((rs.foldl (takeWholeFall before) s).rail q) := by
    intro rs
    induction rs with
    | nil => exact fun _ _ h => h
    | cons r rs ih => exact fun x s h => ih x _ (hone x s r h)
  exact hfold allRails _ e.st (.kept (.refl _))

/-- A rail that is not granted takes its target, and then the whole fall where it is due. -/
theorem turnOf_handGrant {before : State} {e : Event} (hs : Firm before e.st) {r : Rail} {k : GrantKind} {n : Nat}
    (hreq : e.st.requestOf r = some (k, n)) (hfits : e.st.fits n = true) {q : Rail} (hq : q ≠ r) :
    ∃ z, TurnOf q (e.st.record q) (e.st.rail q) z ∧ FallOf (before.rail q) z ((handGrant before r k n e).st.rail q) := by
  have hrefl : TurnOf q (e.st.record q) (e.st.rail q) (e.st.rail q) := .refl (hs.acted q) (hs.sized q).powered
  cases k with
  | raise =>
    rw [handGrant_raise]
    exact ⟨_, hrefl, .kept ((becomes_raise e.st r n).other hq)⟩
  | start =>
    by_cases h : e.st.monitored r = true ∧ (e.st.rail r).pg = .high
    · obtain ⟨hmon, hpg⟩ := h
      have hfed := hs.backfed hreq hfits hmon hpg
      rw [handGrant_backfeed hmon hpg fun c hc => hs.toCalm.child_of_start hreq hc]
      generalize (e.st.takeBudget r n).enterFault r .backfeed = a at hfed
      have hturn := turnOf_settle (e := ⟨a, []⟩) hfed.calm q
      dsimp only at hturn
      rw [hfed.only.record] at hturn
      exact ⟨_, .ahead (hfed.becomes.other hq) hturn, fallOf_takeWholeFalls before _ q⟩
    · rw [handGrant_start h]
      exact ⟨_, hrefl, .kept ((becomes_start e.st r n).other hq)⟩

/-- A rail that slewed already where the grants begin goes on slewing. -/
theorem slewing_handGrant {before : State} {e : Event} (hs : Firm before e.st) {r : Rail} {k : GrantKind} {n : Nat}
    (hreq : e.st.requestOf r = some (k, n)) (hfits : e.st.fits n = true) {q : Rail} (hq : (e.st.rail q).state = .slewing)
    (hbefore : (before.rail q).state ≠ .on) : OnlyAims (e.st.rail q) ((handGrant before r k n e).st.rail q) := by
  have hqr : q ≠ r := by
    rintro rfl
    cases k with
    | start => exact nomatch hq.symm.trans (State.waiting_of_start hreq)
    | raise => exact nomatch hq.symm.trans (State.on_of_raise hreq)
  obtain ⟨z, hturn, hfall⟩ := turnOf_handGrant hs hreq hfits hqr
  have hz : OnlyAims (e.st.rail q) z := by
    cases hturn with
    | acted h =>
      unfold RailRuntime.taking at h
      rw [RailRuntime.acts_of_slewing (x := { e.st.rail q with target := z.target }) hq] at h
      exact OnlyAims.trans (y := { e.st.rail q with target := z.target }) rfl h.onlyAims
    | drained hd => exact nomatch hq.symm.trans hd
  cases hfall with
  | kept h => exact hz.trans h.onlyAims
  | fallen hon => exact absurd hon hbefore

/-- A rail in ON at its target, above 0, stays as it is for as long as its target does. -/
theorem on_handGrant {before : State} {e : Event} (hs : Firm before e.st) {r : Rail} {k : GrantKind} {n : Nat}
    (hreq : e.st.requestOf r = some (k, n)) (hfits : e.st.fits n = true) {q : Rail} (hq : (e.st.rail q).state = .on)
    (htarget : (e.st.rail q).target = (e.st.rail q).level)
    (hkept : ((handGrant before r k n e).st.rail q).target = (e.st.rail q).target) :
    SameButHolds (e.st.rail q) ((handGrant before r k n e).st.rail q) := by
  have hlevel := (hs.sized q).powered (.inl (by rw [hq]; rfl))
  have hqr : q ≠ r := by
    rintro rfl
    cases k with
    | start => exact nomatch hq.symm.trans (State.waiting_of_start hreq)
    | raise =>
      have h := ((e.st.requestOf_eq_raise_iff q n).mp hreq).2.1
      omega
  obtain ⟨z, hturn, hfall⟩ := turnOf_handGrant hs hreq hfits hqr
  cases hfall with
  | fallen _ _ _ hzero => omega
  | kept h =>
    have hz : z.target = (e.st.rail q).target := h.target.symm.trans hkept
    cases hturn with
    | acted hy =>
      rw [hz] at hy
      unfold RailRuntime.taking at hy
      rw [RailRuntime.acts_of_on (x := { e.st.rail q with target := (e.st.rail q).target }) hq] at hy
      dsimp only at hy
      rw [if_neg (by omega), if_neg (by omega)] at hy
      exact hy.trans h
    | drained hd => exact nomatch hq.symm.trans hd

/-! #### Targets fall, and do not rise, through the grants -/

/-- A rail without a demand of its own and without a holder. -/
structure Unwanted (s : State) (r : Rail) : Prop where
  demand : (s.rail r).effectiveDemand = 0
  held : ∀ c, (s.rail r).holdSet.get c = false

theorem Unwanted.targetFor {s : State} {r : Rail} (h : Unwanted s r) : s.targetFor r = 0 := by
  have hheld : (s.rail r).isHeld = false := List.any_eq_false.mpr fun c _ => by rw [h.held c]; nofun
  unfold State.targetFor RailRuntime.demandedTarget
  rw [h.demand, hheld]
  exact ite_self _

theorem State.unwanted_iff {s : State} {r : Rail} (hd : (s.record r).defined = true) : s.targetFor r = 0 ↔ Unwanted s r := by
  refine ⟨fun h => ⟨?_, RailRuntime.holdSet_of_isHeld (State.isHeld_of_targetFor h hd)⟩, Unwanted.targetFor⟩
  unfold State.targetFor RailRuntime.demandedTarget at h
  rw [if_pos hd] at h
  exact Classical.byContradiction fun hne => hne (by rwa [if_neg hne] at h)

theorem State.targetFor_cases {s t : State} {r : Rail} (hrecord : t.record r = s.record r)
    (hclaims : (t.rail r).claims = (s.rail r).claims) (hsuspended : (t.rail r).suspended = (s.rail r).suspended)
    (hs : s.targetFor r ≠ 0) : t.targetFor r = s.targetFor r ∨ t.targetFor r = 0 := by
  have hdemand : (t.rail r).effectiveDemand = (s.rail r).effectiveDemand := by
    unfold RailRuntime.effectiveDemand RailRuntime.claimDemand
    rw [hclaims, hsuspended]
  unfold State.targetFor RailRuntime.demandedTarget at hs ⊢
  rw [hrecord, hdemand]
  by_cases hd : (s.record r).defined = true
  · rw [if_pos hd] at hs
    rw [if_pos hd, if_pos hd]
    by_cases h0 : (s.rail r).effectiveDemand = 0
    · rw [if_pos h0] at hs
      rw [if_pos h0, if_pos h0]
      by_cases hheld : (s.rail r).isHeld = true
      · rw [if_pos hheld]
        by_cases h' : (t.rail r).isHeld = true
        · exact .inl (if_pos h')
        · exact .inr (if_neg h')
      · exact absurd (if_neg hheld) hs
    · rw [if_neg h0, if_neg h0]
      exact .inl rfl
  · exact absurd (if_neg hd) hs

theorem Moves.effectiveDemand {s t : State} (h : Moves s t) (r : Rail) :
    (t.rail r).effectiveDemand = (s.rail r).effectiveDemand := by
  obtain ⟨hclaims, hsuspended, -⟩ := h.inputs r
  unfold RailRuntime.effectiveDemand RailRuntime.claimDemand
  rw [hclaims, hsuspended]

theorem RailState.up_of_not_holding {x : RailState} (h : x.holding = false) : x.up = false := by
  cases x <;> simp_all [RailState.holding, RailState.up]

/-- A rail without a demand and without a holder stays so: no rail comes to hold its parents at a grant. -/
theorem Unwanted.handGrant {before : State} {e : Event} {q : Rail} (h : Unwanted e.st q) (hs : Firm before e.st)
    (hbefore : ∀ r, RailSized (e.st.record r) (before.rail r)) {r : Rail} {k : GrantKind} {n : Nat}
    (hreq : e.st.requestOf r = some (k, n)) (hfits : e.st.fits n = true) : Unwanted (handGrant before r k n e).st q := by
  have hm := moves_handGrant before hreq hfits
  refine ⟨(hm.effectiveDemand q).trans h.demand, fun c => ?_⟩
  have hfree := h.held c
  rw [hs.holds q c] at hfree
  rw [(hs.handGrant hbefore hreq hfits).holds q c, State.isParent_of_onlyRails hm.onlyRails]
  cases hp : e.st.isParent q c with
  | false => rfl
  | true =>
    rw [hp, Bool.true_and] at hfree
    rcases low_handGrant hs hbefore hreq hfits (RailState.up_of_not_holding hfree) with ⟨hrail, -⟩ | ⟨-, hw, -⟩
    · rw [hrail, hfree]
      rfl
    · rw [hw] at hfree
      cases hfree

end Sys2Proof.Machine
end

/-! ### The end of a ramp or a slew (R29, R30, R33, R40) -/

section
namespace Sys2Proof.Machine

/-! #### All the grants of an event -/

/-- Through the grants a rail in ON at its target stays as it was, or has lost its target. -/
theorem on_granted {before : State} {e : Event} (hs : Firm before e.st)
    (hbefore : ∀ r, RailSized (e.st.record r) (before.rail r)) {q : Rail} (hq : (e.st.rail q).state = .on)
    (htarget : (e.st.rail q).target = (e.st.rail q).level) :
    SameButHolds (e.st.rail q) ((e.granted before).st.rail q) ∨ Unwanted (e.granted before).st q := by
  have hlevel := (hs.sized q).powered (.inl (by rw [hq]; rfl))
  have hd := (hs.sized q).defined (by rw [hq]; nofun)
  refine (repeatRounds_keeps (before := before)
    (P := fun e' => (Firm before e'.st ∧ ∀ r, RailSized (e'.st.record r) (before.rail r)) ∧ OnlyRails e.st e'.st
      ∧ (SameButHolds (e.st.rail q) (e'.st.rail q) ∨ Unwanted e'.st q))
    (fun s t log hqueue ⟨⟨hf, hb⟩, ho, hk⟩ => ?_) (fun e' r k n hreq hfits ⟨⟨hf, hb⟩, ho, hk⟩ => ?_) Config.grantRounds
    (e := { e with log := [] }) ⟨⟨hs, hbefore⟩, .refl _, .inl (.refl _)⟩).2.2
  · unfold QueueOnly at hqueue
    have hrail : t.rail q = s.rail q := by rw [hqueue]; rfl
    refine ⟨⟨hf.of_same (by rw [hqueue]) (by rw [hqueue]), fun r => ?_⟩, ho.trans (by rw [hqueue]; exact onlyRails_setQueue s _), ?_⟩
    · rw [show State.record t r = State.record s r by rw [hqueue]; rfl]
      exact hb r
    · dsimp only at hk ⊢
      rw [hrail]
      exact hk.imp_right fun h => ⟨by rw [hrail]; exact h.demand, by rw [hrail]; exact h.held⟩
  · have hm := moves_handGrant before hreq hfits
    have hf' := hf.handGrant hb hreq hfits
    refine ⟨⟨hf', fun r => by rw [hm.onlyRails.record]; exact hb r⟩, ho.trans hm.onlyRails, ?_⟩
    rcases hk with hk | hk
    · have hon : (e'.st.rail q).state = .on := hk.state.trans hq
      have hat : (e'.st.rail q).target = (e'.st.rail q).level := by rw [hk.target, hk.level, htarget]
      by_cases hkept : ((handGrant before r k n e').st.rail q).target = (e'.st.rail q).target
      · exact .inl (hk.trans (on_handGrant hf hreq hfits hon hat hkept))
      · have hlost := (State.targetFor_cases (hm.onlyRails.record q) (hm.inputs q).1 (hm.inputs q).2.1 (by
          rw [← (hf.aimed q).target, hk.target, htarget]
          omega)).resolve_left (by rwa [← (hf.aimed q).target, ← (hf'.aimed q).target])
        exact .inr ((State.unwanted_iff (by rw [hm.onlyRails.record, ho.record]; exact hd)).mp hlost)
    · exact .inr (hk.handGrant hf hb hreq hfits)

/-- Without a target where the grants begin, a rail is without one where they end. -/
theorem unwanted_granted {before : State} {e : Event} (hs : Firm before e.st)
    (hbefore : ∀ r, RailSized (e.st.record r) (before.rail r)) {q : Rail} (hq : Unwanted e.st q) :
    Unwanted (e.granted before).st q := by
  refine (repeatRounds_keeps (before := before)
    (P := fun e' => (Firm before e'.st ∧ ∀ r, RailSized (e'.st.record r) (before.rail r)) ∧ Unwanted e'.st q)
    (fun s t log hqueue ⟨⟨hf, hb⟩, hk⟩ => ?_) (fun e' r k n hreq hfits ⟨⟨hf, hb⟩, hk⟩ => ?_) Config.grantRounds
    (e := { e with log := [] }) ⟨⟨hs, hbefore⟩, hq⟩).2
  · unfold QueueOnly at hqueue
    have hrail : t.rail q = s.rail q := by rw [hqueue]; rfl
    refine ⟨⟨hf.of_same (by rw [hqueue]) (by rw [hqueue]), fun r => ?_⟩, ⟨by rw [hrail]; exact hk.demand, by rw [hrail]; exact hk.held⟩⟩
    rw [show State.record t r = State.record s r by rw [hqueue]; rfl]
    exact hb r
  · exact ⟨⟨hf.handGrant hb hreq hfits, fun r => by
      rw [(moves_handGrant before hreq hfits).onlyRails.record]
      exact hb r⟩, hk.handGrant hf hb hreq hfits⟩

/-- Through the grants a rail that slewed already before them goes on slewing. -/
theorem slewing_granted {before : State} {e : Event} (hs : Firm before e.st)
    (hbefore : ∀ r, RailSized (e.st.record r) (before.rail r)) {q : Rail} (hq : (e.st.rail q).state = .slewing)
    (hnot : (before.rail q).state ≠ .on) : OnlyAims (e.st.rail q) ((e.granted before).st.rail q) := by
  refine (repeatRounds_keeps (before := before)
    (P := fun e' => (Firm before e'.st ∧ ∀ r, RailSized (e'.st.record r) (before.rail r))
      ∧ OnlyAims (e.st.rail q) (e'.st.rail q))
    (fun s t log hqueue ⟨⟨hf, hb⟩, hk⟩ => ?_) (fun e' r k n hreq hfits ⟨⟨hf, hb⟩, hk⟩ => ?_) Config.grantRounds
    (e := { e with log := [] }) ⟨⟨hs, hbefore⟩, .refl _⟩).2
  · unfold QueueOnly at hqueue
    refine ⟨⟨hf.of_same (by rw [hqueue]) (by rw [hqueue]), fun r => ?_⟩, ?_⟩
    · rw [show State.record t r = State.record s r by rw [hqueue]; rfl]
      exact hb r
    · rw [show State.rail t q = State.rail s q by rw [hqueue]; rfl]
      exact hk
  · exact ⟨⟨hf.handGrant hb hreq hfits, fun r => by
      rw [(moves_handGrant before hreq hfits).onlyRails.record]
      exact hb r⟩, hk.trans (slewing_handGrant hf hreq hfits (hk.state.trans hq) hnot)⟩

/-- A rail that slews already where an event begins goes on slewing. -/
theorem slewing_railTurn {m : State} (hm : Calm m) (log : List Announcement) {q : Rail} (hq : (m.rail q).state = .slewing) :
    OnlyAims (m.rail q) ((railTurn none [] ⟨m, log⟩).rail q) := by
  have hturn := turnOf_settle (e := ⟨m, log⟩) hm q
  have hsettled : OnlyAims (m.rail q) ((railEvent ⟨m, log⟩).st.rail q) := by
    change OnlyAims (m.rail q) ((settle ⟨m, log⟩).st.rail q)
    generalize (settle ⟨m, log⟩).st.rail q = z at hturn
    cases hturn with
    | acted h =>
      unfold RailRuntime.taking at h
      rw [RailRuntime.acts_of_slewing (x := { m.rail q with target := z.target }) hq] at h
      exact OnlyAims.trans (y := { m.rail q with target := z.target }) rfl h.onlyAims
    | drained hd => exact nomatch hq.symm.trans hd
  rw [rail_railTurn]
  exact hsettled.trans (slewing_granted (firm_railEvent hm log) (sized_railEvent hm log) (hsettled.state.trans hq)
    (by rw [hq]; nofun))

/-- A rail in ON at its target stays as it is at an event, where its target does. -/
theorem on_railTurn {m : State} (hm : Calm m) (log : List Announcement) {q : Rail} (hq : (m.rail q).state = .on)
    (haimed : Aimed m q) (htarget : (m.rail q).target = (m.rail q).level)
    (hkept : ((railTurn none [] ⟨m, log⟩).rail q).target = (m.rail q).target) :
    SameButHolds (m.rail q) ((railTurn none [] ⟨m, log⟩).rail q) := by
  have hlevel := (hm.sized q).powered (.inl (by rw [hq]; rfl))
  have hd := (hm.sized q).defined (by rw [hq]; nofun)
  have hturn : TurnOf q (m.record q) (m.rail q) ((railEvent ⟨m, log⟩).st.rail q) := turnOf_settle (e := ⟨m, log⟩) hm q
  have hfirm := firm_railEvent hm log
  have hsized := sized_railEvent hm log
  have hmoves := moves_railEvent ⟨m, log⟩
  have hend := firm_granted hm log
  rw [rail_railTurn] at hkept ⊢
  have hlost : ¬ Unwanted ((railEvent ⟨m, log⟩).granted m).st q := fun h => by
    rw [(hend.aimed q).target, h.targetFor] at hkept
    omega
  by_cases hsettled : ((railEvent ⟨m, log⟩).st.rail q).target = (m.rail q).target
  · have hsame : SameButHolds (m.rail q) ((railEvent ⟨m, log⟩).st.rail q) := by
      cases hturn with
      | acted h =>
        rw [hsettled] at h
        unfold RailRuntime.taking at h
        rw [RailRuntime.acts_of_on (x := { m.rail q with target := (m.rail q).target }) hq] at h
        dsimp only at h
        rw [if_neg (by omega), if_neg (by omega)] at h
        exact h
      | drained hd => exact nomatch hq.symm.trans hd
    exact hsame.trans ((on_granted hfirm hsized (hsame.state.trans hq) (by rw [hsame.target, hsame.level, htarget])).resolve_right
      hlost)
  · have hzero := (State.targetFor_cases (hmoves.onlyRails.record q) (hmoves.inputs q).1 (hmoves.inputs q).2.1 (by
      rw [← haimed.target]
      omega)).resolve_left (by
        rw [← haimed.target]
        exact fun h => hsettled ((hfirm.aimed q).target.trans h))
    have hnow := (State.unwanted_iff (by rw [hmoves.onlyRails.record]; exact hd)).mp hzero
    exact absurd (unwanted_granted hfirm hsized hnow) hlost

end Sys2Proof.Machine
end

section
namespace Sys2Proof.Machine

/-! #### A rail that has reached ON -/

theorem log_onExamined (r : Rail) (s : State) : (onExamined r s).log = [.enteredOn r (s.rail r).level] := by
  unfold onExamined
  rw [log_examineTarget, (becomes_enterOn s r).self.level]
  rfl

/-- A rail in ON, or on its way from there. -/
def RailRuntime.AtOn (x : RailRuntime) : Prop :=
  x.state = .on ∨ x.state = .slewing ∨ (x.state = .draining ∧ x.drainFinished = false)

theorem RailRuntime.AtOn.state {x : RailRuntime} (h : x.AtOn) : x.state = .on ∨ x.state = .slewing ∨ x.state = .draining :=
  h.imp_right fun h => h.imp_right And.left

theorem RailStep.atOn {r : Rail} {rec : RailRecord} {asks : Option (GrantKind × Nat)} {x y : RailRuntime}
    (h : RailStep r rec asks x y) (hx : x.AtOn) : y.AtOn := by
  have hnot {z : RailState} (hz : x.state = z) (hne : z ≠ .on ∧ z ≠ .slewing ∧ z ≠ .draining) : y.AtOn := by
    obtain ⟨h1, h2, h3⟩ := hne
    rcases hx.state with h | h | h
    · exact absurd (hz.symm.trans h) h1
    · exact absurd (hz.symm.trans h) h2
    · exact absurd (hz.symm.trans h) h3
  cases h with
  | aims h =>
    unfold RailRuntime.AtOn
    rw [h.state, h.drainFinished]
    exact hx
  | wait hs => exact hnot hs ⟨nofun, nofun, nofun⟩
  | unwait hs => exact hnot hs ⟨nofun, nofun, nofun⟩
  | drain c _ h => exact .inr (.inr ⟨h.state, h.onlyAims.drainFinished⟩)
  | slewDown _ _ _ h => exact .inr (.inl h.state)
  | drained hs hf =>
    rcases hx with hx | hx | ⟨-, hx⟩
    · exact nomatch hx.symm.trans hs
    · exact nomatch hx.symm.trans hs
    · exact absurd (hx.symm.trans hf) Bool.false_ne_true
  | start n _ _ hs => exact hnot hs ⟨nofun, nofun, nofun⟩
  | backfeed n _ _ _ hs => exact hnot hs ⟨nofun, nofun, nofun⟩
  | raise n _ _ _ _ h => exact .inr (.inl h.state)
  | wholeFall level _ _ h => exact .inr (.inr ⟨h.state, h.onlyAims.drainFinished⟩)

theorem atOn_onExamined (r : Rail) (s : State) : ((onExamined r s).st.rail r).AtOn :=
  (moves_onExamined s r).keepRail (P := RailRuntime.AtOn) (fun _ _ _ h => h.atOn) rfl (.inl (s.state_enterOn r))

theorem reachOn_eq (r : Rail) (s : State) : reachOn r s = railTurn none [] (onExamined r s) := rfl

theorem moves_reached (m : State) (log : List Announcement) :
    Moves m ((railEvent ⟨m, log⟩).granted m).st := (moves_railEvent ⟨m, log⟩).trans (moves_granted m _)

theorem atOn_reachOn (r : Rail) (s : State) : ((reachOn r s).rail r).AtOn := by
  rw [reachOn_eq, rail_railTurn]
  exact (moves_reached _ _).keepRail (P := RailRuntime.AtOn) (fun _ _ _ h => h.atOn) rfl (atOn_onExamined r s)

/-- The CLAIM-WAITs at or below the level reached are granted (R33, R153). -/
theorem granted_reachOn (r : Rail) (s : State) {l : Link} {level : Nat} {tag : Byte} (hl : (s.session l).state = .attached)
    (hout : s.outstanding l r = some ⟨.claimWait level, tag⟩) (hle : level ≤ (s.rail r).level) :
    (reachOn r s).outstanding l r = none
      ∧ (⟨.granted, some r, some tag, (s.rail r).level, .absent, s.timestamp⟩ : EventRecord)
        ∈ ((reachOn r s).session l).queue := by
  have hatOn := atOn_reachOn r s
  have hlog := log_onExamined r s
  have ho := onlyRails_onExamined s r
  rw [reachOn_eq] at hatOn ⊢
  rw [show onExamined r s = ⟨(onExamined r s).st, (onExamined r s).log⟩ from rfl, hlog] at hatOn ⊢
  rw [rail_railTurn] at hatOn
  generalize (onExamined r s).st = m at ho hatOn ⊢
  have htold := mem_told (log := [.enteredOn r (s.rail r).level]) (m := m) (a := .enteredOn r (s.rail r).level) (r := r) rfl
    List.mem_cons_self rfl
  have honly (a : Announcement) (ha : a ∈ (railEvent ⟨m, [.enteredOn r (s.rail r).level]⟩).told [] m) :=
    tells_told [.enteredOn r (s.rail r).level] m ha
  have hsession : (railTurn none [] ⟨m, [.enteredOn r (s.rail r).level]⟩).session l = _ := session_conclude none [] m _ l
  have hstart := (onlyRails_railEvent ⟨m, [.enteredOn r (s.rail r).level]⟩).session l
  have hnow := ((onlyRails_railEvent ⟨m, [.enteredOn r (s.rail r).level]⟩).trans
    (onlyRails_granted m (railEvent ⟨m, [.enteredOn r (s.rail r).level]⟩))).timestamp
  rw [State.outstanding, hsession, hstart, ho.session]
  dsimp only at hnow
  rw [ho.timestamp] at hnow
  generalize (railEvent ⟨m, [.enteredOn r (s.rail r).level]⟩) = e at *
  have hdone := Session.resolved_foldl_takes (e.granted m).st none l (log := e.told [] m) hl hout
    (P := fun x => x = ⟨.granted, some r, some tag, (s.rail r).level, .absent, s.timestamp⟩)
    ⟨_, htold, rfl, by simp [resolution, hle]⟩ fun a ha har code lvl d hres => by
      rcases honly a ha with h | h
      · rw [List.mem_singleton.mp h] at hres
        simp only [resolution, if_pos hle, Option.some.injEq, Prod.mk.injEq] at hres
        obtain ⟨rfl, rfl, rfl⟩ := hres
        rw [hnow]
      · cases a with
        | enteredOn q n => exact absurd rfl ((h q).1 n)
        | enteredFault q k =>
          have hq : q = r := Option.some.inj har
          have hfault := (h q).2 k rfl
          rw [hq] at hfault
          rcases hatOn.state with hx | hx | hx <;> exact nomatch hx.symm.trans hfault
        | enteredOff q => cases hres
        | targetRose q => cases hres
        | forcedOff q k => cases hres
        | suspended q => cases hres
        | resumed q => cases hres
        | faultCleared q k c => cases hres
        | supplyChanged st => cases hres
  obtain ⟨hnone, x, hx, rfl⟩ := hdone
  exact ⟨hnone, hx⟩

/-! #### In a coherent part -/

/-- What the rail's record is once its target has been examined. -/
theorem examined_onExamined (a : State) (r : Rail) : SameButHolds (if (a.rail r).target = 0 then ((a.rail r).toOn r (a.record r)).toDraining r (a.record r) .normal
    else if (a.rail r).target < (a.rail r).level then ((a.rail r).toOn r (a.record r)).toSlewing r (a.record r).slewTime.toNat
    else (a.rail r).toOn r (a.record r)) ((onExamined r a).st.rail r) := by
  have hb := (becomes_onExamined (s := a) r).self
  rw [RailRuntime.acts_of_on rfl] at hb
  exact hb

theorem draining_reachOn {a : State} {r : Rail} (htarget : (a.rail r).target = 0) :
    ((reachOn r a).rail r).state = .draining ∧ ((reachOn r a).rail r).drainCause = .normal := by
  have hexamined := examined_onExamined a r
  rw [if_pos htarget] at hexamined
  have haims : OnlyAims ((onExamined r a).st.rail r) ((reachOn r a).rail r) := by
    rw [reachOn_eq, rail_railTurn]
    exact (moves_reached _ _).onlyAims_of_frozen (.inr ⟨hexamined.state, hexamined.onlyAims.drainFinished⟩)
  have hall := hexamined.onlyAims.trans haims
  rw [hall]
  exact ⟨rfl, rfl⟩

/-- A rail in RAMPING or SLEWING reaches ON in a part that keeps the rules of its rails. -/
structure ReachesOn (a : State) (r : Rail) : Prop where
  calm : Calm a
  aimed : Aimed a r
  state : (a.rail r).state = .ramping ∨ (a.rail r).state = .slewing

section
variable {a : State} {r : Rail} (h : ReachesOn a r)
include h

theorem ReachesOn.running : (a.rail r).state.running = true := by
  rcases h.state with h | h <;> rw [h] <;> rfl

theorem ReachesOn.calmExamined : Calm (onExamined r a).st := calm_onExamined h.calm h.aimed h.state

theorem ReachesOn.level_pos : 1 ≤ (a.rail r).level := (h.calm.sized r).powered (.inl h.running)

theorem ReachesOn.stays (htarget : (a.rail r).target = (a.rail r).level)
    (hkept : ((reachOn r a).rail r).target = (a.rail r).target) :
    SameButHolds ((a.rail r).toOn r (a.record r)) ((reachOn r a).rail r) := by
  have hpos := h.level_pos
  have hexamined := examined_onExamined a r
  rw [if_neg (by omega), if_neg (by omega)] at hexamined
  have hm := h.calmExamined
  have haimed : Aimed (onExamined r a).st r := by
    refine ⟨?_, fun hf => ?_⟩
    · rw [(becomes_onExamined (s := a) r).targetFor_self h.calm.holds hm.holds (onlyRails_onExamined a r)
        (h.calm.table.acyclic.not_self r) (inputs_acts r).1 (inputs_acts r).2, hexamined.target]
      exact h.aimed.target
    · rw [(hm.shape r).drainFinished_eq_false (by rw [hexamined.state]; nofun)] at hf
      cases hf
  rw [reachOn_eq] at hkept ⊢
  rw [show onExamined r a = ⟨(onExamined r a).st, (onExamined r a).log⟩ from rfl] at hkept ⊢
  generalize (onExamined r a).st = m at hexamined hm haimed hkept ⊢
  exact hexamined.trans (on_railTurn hm _ hexamined.state haimed (by rw [hexamined.target, hexamined.level]; exact htarget)
    (hkept.trans hexamined.target.symm))

theorem ReachesOn.slews (hpos : (a.rail r).target ≠ 0) (htarget : (a.rail r).target < (a.rail r).level) :
    OnlyAims (((a.rail r).toOn r (a.record r)).toSlewing r (a.record r).slewTime.toNat) ((reachOn r a).rail r) := by
  have hexamined := examined_onExamined a r
  rw [if_neg hpos, if_pos htarget] at hexamined
  exact hexamined.onlyAims.trans (slewing_railTurn h.calmExamined _ hexamined.state)

end

/-! #### The commands -/

/-- The state in which a rail reaches ON: as the command found it, but for the filtered PG of the rail. -/
structure ReachedFrom (s a : State) (r : Rail) : Prop where
  light : Light s a
  sessions : a.sessions = s.sessions
  timestamp : a.timestamp = s.timestamp
  state : (a.rail r).state = .ramping ∨ (a.rail r).state = .slewing

theorem Reaches.exec_eq {s : State} {c : Instr} {r : Rail} (h : Reaches s c r) :
    ∃ a, ReachedFrom s a r ∧ exec c s = .next (reachOn r a) := by
  cases h with
  | ramped r hr htimer hmon =>
    refine ⟨s, ⟨.refl s, rfl, rfl, .inl hr⟩, congrArg Host.Outcome.next ?_⟩
    unfold rampExpiry
    rw [if_pos ⟨hr, by rw [htimer]; rfl⟩, if_neg (by rw [hmon]; nofun)]
  | slewed r hr htimer hpg =>
    refine ⟨s, ⟨.refl s, rfl, rfl, .inr hr⟩, congrArg Host.Outcome.next ?_⟩
    unfold slewExpiry
    rw [if_pos ⟨hr, by rw [htimer]; rfl⟩, if_neg]
    rintro ⟨hmon, hlow⟩
    rcases hpg with h | h
    · exact Bool.false_ne_true (h.symm.trans hmon)
    · exact nomatch h.symm.trans hlow
  | pgGood r hr hpg hc hmon =>
    have hstate : ((s.modRail r fun x => { x with pg := .high }).rail r).state = .ramping := by
      rw [State.rail_modRail, if_pos rfl]
      exact hr
    have hactive : (s.modRail r fun x => { x with pg := .high }).activeRail r = true
        ∧ (s.modRail r fun x => { x with pg := .high }).monitored r = true := by
      refine ⟨?_, hmon⟩
      have hd : (s.record r).defined = true := by
        unfold State.monitored at hmon
        rw [Bool.and_eq_true] at hmon
        exact hmon.1
      change (s.lifecycle == .committed && (s.record r).defined) = true
      rw [hc, hd]
      rfl
    refine ⟨s.modRail r fun x => { x with pg := .high }, ⟨.pg r .high (.refl _), rfl, rfl, .inl hstate⟩,
      congrArg Host.Outcome.next ?_⟩
    unfold pgChange
    rw [if_neg (by rw [hpg]; nofun), hr]
    exact if_pos hactive

/-- Settles O35. -/
theorem endedRampOrSlewReachesOn : Obligations.EndedRampOrSlewReachesOn := by
  intro c s r hreaches
  obtain ⟨a, hfrom, hexec⟩ := hreaches.exec_eq
  obtain ⟨pg, hrail⟩ : ∃ pg, a.rail r = { s.rail r with pg := pg } := ⟨_, hfrom.light.rail r⟩
  have hlevel : (a.rail r).level = (s.rail r).level := by rw [hrail]
  have htarget : (a.rail r).target = (s.rail r).target := by rw [hrail]
  have hon (hs : Coherent s) : ReachesOn a r ∧ a.record r = s.record r := by
    have hstate : (s.rail r).state = .ramping ∨ (s.rail r).state = .slewing := by
      have h := hfrom.state
      rwa [hrail] at h
    exact ⟨⟨(hs.calm (hs.committed (by rcases hstate with h | h <;> rw [h] <;> nofun))).light hfrom.light,
      (hs.aimed r).light hfrom.light, hfrom.state⟩, State.record_of_records_eq hfrom.light.inputsOnly.records r⟩
  refine ⟨_, hexec, (atOn_reachOn r a).state, fun hs h1 h2 => ?_, fun hs h0 => ?_, fun hs hpos hlt => ?_, fun l level tag hl hout hle => ?_⟩
  · obtain ⟨hreach, hrecord⟩ := hon hs
    have hend := (hreach.stays (by rw [htarget, hlevel, h1]) (by rw [h2, htarget])).onlyAims
    have htrim := (hreach.calm.sized r).trimmed_eq (.inl hreach.running)
    rw [hend]
    refine ⟨rfl, hlevel, rfl, rfl, rfl, ?_⟩
    rw [← hrecord, ← hlevel]
    exact htrim
  · exact draining_reachOn (htarget.trans h0)
  · obtain ⟨hreach, hrecord⟩ := hon hs
    have hend := hreach.slews (by rw [htarget]; exact hpos) (by rw [htarget, hlevel]; exact hlt)
    rw [hend, ← hrecord]
    exact ⟨rfl, congrArg some hlevel, htarget, rfl⟩
  · have hsession : a.session l = s.session l := congrArg (fun x : Vector Session 4 => x.get l) hfrom.sessions
    have hdone := granted_reachOn r a (l := l) (level := level) (tag := tag) (by rw [hsession]; exact hl)
      (by rw [State.outstanding, hsession]; exact hout) (by rw [hlevel]; exact hle)
    rw [hlevel, hfrom.timestamp] at hdone
    exact hdone

end Sys2Proof.Machine
end

/-! ### Grants at the head of the queue (R28, R35, R81, R83 to R85) -/

section
namespace Sys2Proof.Machine

/-- The part with the head taken off its queue. -/
def State.popped (s : State) : State := { s with budgetQueue := s.budgetQueue.tail }

/-- The head of the queue handed to its rail, ahead of the grants that follow. -/
def State.handed (s : State) (r : Rail) (k : GrantKind) (n : Nat) : Event :=
  handGrant s r k n ⟨s.popped, []⟩

theorem grantHead_of_fits {s : State} (hs : QueueKept s) {r : Rail} {k : GrantKind} {n : Nat} {p : BitVec 2}
    (hhead : s.budgetQueue.head? = some ⟨r, k, n, p⟩) (hfits : s.fits n = true) :
    grantHead r k s = concludeGroup (s.handed r k n) := by
  obtain ⟨rest, hrest⟩ : ∃ rest, s.budgetQueue = ⟨r, k, n, p⟩ :: rest := by
    cases hq : s.budgetQueue with
    | nil => rw [hq] at hhead; cases hhead
    | cons q rest =>
      rw [hq] at hhead
      exact ⟨rest, by rw [Option.some.inj hhead]⟩
  unfold grantHead State.handed State.popped
  rw [hs.reconcile, hrest]
  exact if_pos ⟨rfl, rfl, hfits⟩

/-- A head that its rail still asks for, and that does not fit, is left as it is. -/
theorem grantHead_of_waits {s : State} {r : Rail} {k : GrantKind} {n : Nat} {p : BitVec 2}
    (hhead : s.budgetQueue.head? = some ⟨r, k, n, p⟩) (hreq : s.requestOf r = some (k, n)) (hpos : 0 < n)
    (hwaits : s.limit < s.allocated + n) : grantHead r k s = s := by
  obtain ⟨rest, hrest⟩ : ∃ rest, s.reconcile.budgetQueue = ⟨r, k, n, p⟩ :: rest := by
    cases hq : s.budgetQueue with
    | nil => rw [hq] at hhead; cases hhead
    | cons q rest =>
      rw [hq] at hhead
      cases Option.some.inj hhead
      refine ⟨rest.filterMap s.revised, ?_⟩
      rw [State.reconcile_eq]
      dsimp only
      rw [hq]
      exact List.filterMap_cons_some (State.revised_of_asks hreq)
  unfold grantHead
  rw [hrest]
  refine if_neg fun hfits => ?_
  rcases (s.fits_iff n).mp hfits.2.2 with h | h <;> omega

/-- A head that fits, in a part that is sound but for it. -/
structure HeadDue (s : State) (r : Rail) (k : GrantKind) (n : Nat) (p : BitVec 2) : Prop where
  sound : Sound s
  head : s.budgetQueue.head? = some ⟨r, k, n, p⟩
  fits : s.fits n = true

section
variable {s : State} {r : Rail} {k : GrantKind} {n : Nat} {p : BitVec 2} (h : HeadDue s r k n p)
include h

theorem HeadDue.grantHead : grantHead r k s = concludeGroup (s.handed r k n) := grantHead_of_fits h.sound.kept h.head h.fits

theorem HeadDue.asks : s.requestOf r = some (k, n) := (h.sound.kept.entry _ (List.mem_of_mem_head? h.head)).1

theorem HeadDue.calm : Calm s := by
  refine h.sound.calm ?_
  cases hu : s.lifecycle with
  | committed => rfl
  | uncommitted =>
    have hhead := h.head
    rw [((idleBeforeCommit_iff s).mp h.sound.idle hu).queue] at hhead
    cases hhead

theorem HeadDue.firm : Firm s s.popped :=
  Firm.of_same ⟨h.calm, h.sound.aimed, .refl s⟩ rfl rfl

theorem HeadDue.sized (q : Rail) : RailSized (s.popped.record q) (s.rail q) :=
  h.calm.sized q

theorem HeadDue.firmHanded : Firm (s.handed r k n).st (s.handed r k n).st := by
  have hfirm : Firm s (s.handed r k n).st := h.firm.handGrant (e := ⟨_, []⟩) h.sized h.asks h.fits
  exact ⟨hfirm.toCalm, hfirm.aimed, .refl _⟩

theorem HeadDue.moves : Moves s (s.handed r k n).st := by
  obtain ⟨rest, hrest⟩ : ∃ rest, s.budgetQueue = ⟨r, k, n, p⟩ :: rest := by
    have hhead := h.head
    cases hq : s.budgetQueue with
    | nil => rw [hq] at hhead; cases hhead
    | cons q rest =>
      rw [hq] at hhead
      exact ⟨rest, by rw [Option.some.inj hhead]⟩
  have hpop : Moves s s.popped := by
    unfold State.popped
    rw [hrest]
    exact (Move.pop s _ rest hrest).one
  exact hpop.trans (moves_handGrant s (e := ⟨s.popped, []⟩) h.asks h.fits)

/-- Once granted, the rail has no entry in the queue. -/
theorem HeadDue.queued (hstate : ((concludeGroup (s.handed r k n)).rail r).state ≠ .waiting)
    (hon : ((concludeGroup (s.handed r k n)).rail r).state ≠ .on) : (concludeGroup (s.handed r k n)).queued r = false := by
  have hordered := h.moves.keep (fun _ _ hm h => hm.ordered h) h.sound.kept.ordered
  have hexact : QueueExact (concludeGroup (s.handed r k n)) :=
    queueExact_conclude none (s.handed r k n).log (s.handed r k n).st (e := { s.handed r k n with log := [] }) hordered
  exact hexact.toQueueKept.queued_of_requestOf (State.requestOf_of_not_waiting hstate hon)

omit h in
theorem rail_concludeGroup (e : Event) (q : Rail) :
    (concludeGroup e).rail q = (({ e with log := [] } : Event).granted e.st).st.rail q := rail_conclude ..

end

/-- A START granted at the head, on a rail that does not find BACKFEED. -/
theorem HeadDue.ramps {s : State} {r : Rail} {n : Nat} {p : BitVec 2} (h : HeadDue s r .start n p)
    (hpg : s.monitored r = false ∨ (s.rail r).pg = .low) :
    (concludeGroup (s.handed r .start n)).rail r =
      ({ s.rail r with held := n } : RailRuntime).toRamping r (s.record r).rampTime.toNat := by
  have hw := State.waiting_of_start h.asks
  have hno : ¬(s.monitored r = true ∧ (s.rail r).pg = .high) := by
    rintro ⟨hmon, hhigh⟩
    rcases hpg with h | h
    · exact Bool.false_ne_true (h.symm.trans hmon)
    · exact nomatch h.symm.trans hhigh
  have hfirm := h.firmHanded
  have hself : (s.handed r .start n).st.rail r =
      ({ s.rail r with held := n } : RailRuntime).toRamping r (s.record r).rampTime.toNat := by
    have hstart : s.handed r .start n =
        ⟨(s.popped.takeBudget r n).enterRamping r, []⟩ := handGrant_start hno
    rw [hstart] at hfirm ⊢
    have hrail := (becomes_start s.popped r n).rail_self h.firm.holds hfirm.holds
      (Move.start s.popped r n h.asks h.fits).onlyRails (h.calm.table.acyclic.not_self r) rfl
    have hheld : (s.rail r).held = 0 := (h.calm.sized r).held_waiting hw
    refine hrail.trans ?_
    change ({ s.rail r with held := (s.rail r).held + n } : RailRuntime).toRamping r (s.record r).rampTime.toNat = _
    rw [hheld, Nat.zero_add]
  have hlow := low_granted (e := { s.handed r .start n with log := [] }) hfirm hfirm.sized (q := r) (by
    change ((s.handed r .start n).st.rail r).state.up = false
    rw [hself]
    rfl)
  rw [rail_concludeGroup, ← hself]
  cases hlow with
  | same he _ => exact he
  | granted m hw' _ _ =>
    have hw' : ((s.handed r .start n).st.rail r).state = .waiting := hw'
    rw [hself] at hw'
    cases hw'

/-- A START granted at the head that finds BACKFEED (R85). -/
theorem HeadDue.backfed {s : State} {r : Rail} {n : Nat} {p : BitVec 2} (h : HeadDue s r .start n p)
    (hmon : s.monitored r = true) (hpg : (s.rail r).pg = .high) :
    OnlyAims ((s.rail r).toFault r .backfeed) ((concludeGroup (s.handed r .start n)).rail r) := by
  have hgiven : s.handed r .start n = takeWholeFalls s (settleAfter
      ⟨(s.popped.takeBudget r n).enterFault r .backfeed, [.enteredFault r .backfeed]⟩) :=
    handGrant_backfeed (e := ⟨s.popped, []⟩) hmon hpg
      fun c hc => h.firm.toCalm.child_of_start h.asks hc
  have hself := (becomes_backfeed s.popped r n .backfeed).self
  have hmoves : Moves ((s.popped.takeBudget r n).enterFault r .backfeed)
      (s.handed r .start n).st := by
    rw [hgiven]
    exact (moves_settleAfter ⟨_, [.enteredFault r .backfeed]⟩).trans (moves_takeWholeFalls s _)
  have hgranted := moves_granted (s.handed r .start n).st { s.handed r .start n with log := [] }
  rw [rail_concludeGroup]
  exact hself.onlyAims.trans ((hmoves.trans hgranted).onlyAims_of_frozen (.inl hself.state))

/-- A RAISE granted at the head. -/
theorem HeadDue.slews {s : State} {r : Rail} {n : Nat} {p : BitVec 2} (h : HeadDue s r .raise n p) :
    OnlyAims (({ s.rail r with held := (s.rail r).held + n } : RailRuntime).toSlewing r (s.record r).slewTime.toNat)
      ((concludeGroup (s.handed r .raise n)).rail r) := by
  have hfirm := h.firmHanded
  have hself : SameButHolds (({ s.rail r with held := (s.rail r).held + n } : RailRuntime).toSlewing r (s.record r).slewTime.toNat)
      ((s.handed r .raise n).st.rail r) := (becomes_raise s.popped r n).self
  rw [rail_concludeGroup]
  exact hself.onlyAims.trans (slewing_granted (e := { s.handed r .raise n with log := [] }) hfirm hfirm.sized hself.state
    (by rw [hself.state]; nofun))

end Sys2Proof.Machine
end

/-! ### A new request for amount 0 (R6, R77, R78) -/

section
namespace Sys2Proof.Machine

/-- What a rail asks is read from its own record, from which rails are up, and from the supply state. -/
theorem State.requestOf_congr_up {s t : State} (hrecords : t.records = s.records) (hsupply : t.supply.state = s.supply.state)
    (hup : ∀ p, (t.rail p).state.up = (s.rail p).state.up) {q : Rail} (hstate : (t.rail q).state = (s.rail q).state)
    (hlevel : (t.rail q).level = (s.rail q).level) (htarget : (t.rail q).target = (s.rail q).target) :
    t.requestOf q = s.requestOf q := by
  have hrecord (q : Rail) : t.record q = s.record q := State.record_of_records_eq hrecords q
  have hparents : t.parentsOf q = s.parentsOf q := by
    unfold State.parentsOf
    rw [hrecord]
  unfold State.requestOf State.ready
  simp only [hparents, hrecord, hstate, hlevel, htarget, hsupply, hup]

/-- To the arbiter `s` is as `u` is, but for what rail `r` asks. -/
structure AsksBut (r : Rail) (u s : State) : Prop where
  queue : s.budgetQueue = u.budgetQueue
  allocated : s.allocated = u.allocated
  limit : s.limit = u.limit
  records : s.records = u.records
  asks : ∀ q, q ≠ r → s.requestOf q = u.requestOf q

theorem AsksBut.trans {r : Rail} {u s t : State} (h : AsksBut r u s) (h' : AsksBut r s t) : AsksBut r u t :=
  ⟨h'.queue.trans h.queue, h'.allocated.trans h.allocated, h'.limit.trans h.limit, h'.records.trans h.records,
    fun q hq => (h'.asks q hq).trans (h.asks q hq)⟩

theorem AsksBut.sameArbiter {r : Rail} {u s : State} (h : AsksBut r u s) (hr : s.requestOf r = u.requestOf r) :
    SameArbiter u s :=
  ⟨h.queue, h.allocated, h.limit, h.records, fun q => by
    by_cases hq : q = r
    · rw [hq, hr]
    · exact h.asks q hq⟩

theorem findSome?_of_only {α β : Type} {f : α → Option β} {xs : List α} {a : α} {b : β} (ha : a ∈ xs) (hfa : f a = some b)
    (hother : ∀ x, x ≠ a → f x = none) : xs.findSome? f = some b := by
  obtain ⟨pre, post, rfl, hnot⟩ := List.eq_append_cons_of_mem ha
  have hpre : pre.findSome? f = none := List.findSome?_eq_none_iff.mpr fun x hx => hother x fun h => hnot (h ▸ hx)
  rw [List.findSome?_append, hpre, List.findSome?_cons_of_isSome (by rw [hfa]; rfl), hfa]
  rfl

section
variable {before u s : State} {r : Rail} {k : GrantKind} (hu : QueueExact u) (h : AsksBut r u s)
  (hnone : u.requestOf r = none) (hreq : s.requestOf r = some (k, 0))
include hu h hnone

theorem AsksBut.reconcile : s.reconcile = s := by
  have hentry : ∀ q ∈ s.budgetQueue, s.revised q = some q := fun q hq => by
    rw [h.queue] at hq
    have hasks := (hu.entry q hq).1
    refine State.revised_of_asks ((h.asks q.rail ?_).trans hasks)
    intro hqr
    rw [hqr, hnone] at hasks
    cases hasks
  rw [State.reconcile_eq, filterMap_eq_self hentry]

theorem AsksBut.newRequest (q : Rail) : s.newRequest q = if q = r then s.requestOf r else none := by
  have hqueued : s.queued q = u.queued q := by
    unfold State.queued
    rw [h.queue]
  by_cases hq : q = r
  · subst hq
    unfold State.newRequest
    rw [if_pos rfl, hqueued, hu.toQueueKept.queued_of_requestOf hnone]
    rfl
  · have hnew := hu.toQueueKept.newRequest q
    unfold State.newRequest at hnew ⊢
    rw [if_neg hq, hqueued, h.asks q hq]
    exact hnew

include hreq

theorem AsksBut.zeroRequest : s.zeroRequest = some (r, k) := by
  have hnew := h.newRequest hu hnone
  unfold State.zeroRequest
  refine findSome?_of_only (mem_allRails r) ?_ fun q hq => ?_
  · rw [hnew, if_pos rfl, hreq]
    rfl
  · rw [hnew, if_neg hq]

/-- The grants of an event at which one rail's new request, for amount 0, is all there is to grant. -/
theorem AsksBut.granted {w : State} (hhand : ∀ log, ∃ log', handGrant before r k 0 ⟨s, log⟩ = ⟨w, log'⟩) (hw : AsksBut r s w)
    (hdone : w.requestOf r = none) (log : List Announcement) : ((⟨s, log⟩ : Event).granted before).st = w := by
  obtain ⟨log', hhand⟩ := hhand []
  have hexact : QueueExact w := hu.same ((h.trans hw).sameArbiter (hdone.trans hnone.symm))
  have hround : grantRound before ⟨s, []⟩ = (handGrant before r k 0 ⟨s, []⟩, true) := by
    unfold grantRound
    dsimp only
    rw [h.reconcile hu hnone, h.zeroRequest hu hnone hreq]
  obtain ⟨n, hn⟩ : ∃ n, Config.grantRounds = n + 1 := ⟨39, rfl⟩
  have hrest : repeatRounds (grantRound before) n ⟨w, log'⟩ = ⟨w, log'⟩ := arbitrate_of_exact hexact n log'
  unfold Event.granted arbitrate
  dsimp only
  rw [hn, repeatRounds, hround, hhand]
  dsimp only
  rw [hrest]

end

/-! #### The grant itself -/

section
variable {s : State} {r : Rail}

/-- A change of rail `r` that leaves it up where it was, and what the arbiter counts. -/
theorem AsksBut.of_becomes {w : State} {y : RailRuntime} (hb : Becomes s w r y) (ho : OnlyRails s w)
    (hup : y.state.up = (s.rail r).state.up) (hqueue : w.budgetQueue = s.budgetQueue) (hallocated : w.allocated = s.allocated) :
    AsksBut r s w := by
  refine ⟨hqueue, hallocated, ho.limit, ho.records, fun q hq => ?_⟩
  have hsame := hb.other hq
  refine State.requestOf_congr_up ho.records (by rw [ho.supply]) (fun p => ?_) hsame.state hsame.level hsame.target
  by_cases hp : p = r
  · subst hp
    rw [hb.self.state, hup]
  · rw [(hb.other hp).state]

theorem asksBut_start (hreq : s.requestOf r = some (.start, 0)) : AsksBut r s ((s.takeBudget r 0).enterRamping r) := by
  refine .of_becomes (becomes_start s r 0) (Move.start s r 0 hreq s.fits_zero).onlyRails ?_ ?_ ?_
  · rw [State.waiting_of_start hreq]
    rfl
  · exact moveRail_budgetQueue ..
  · exact moveRail_allocated ..

theorem withdraw_of_not_queued (hq : s.queued r = false) : s.withdraw r = s := by
  unfold State.withdraw
  rw [List.filter_eq_self.mpr fun q hmem => ?_]
  unfold State.queued at hq
  exact bne_iff_ne.mpr fun h => List.any_eq_false.mp hq q hmem (by rw [h]; exact beq_self_eq_true r)

theorem asksBut_raise (hreq : s.requestOf r = some (.raise, 0)) (hq : s.queued r = false) :
    AsksBut r s ((s.takeBudget r 0).enterSlewing r) := by
  refine .of_becomes (becomes_raise s r 0) (Move.raise s r 0 hreq s.fits_zero).onlyRails ?_ ?_ ?_
  · rw [State.on_of_raise hreq]
    rfl
  · unfold State.enterSlewing
    rw [moveRail_budgetQueue, withdraw_of_not_queued (s := s.takeBudget r 0) hq]
    rfl
  · exact moveRail_allocated ..

end

end Sys2Proof.Machine
end

/-! ### A CLAIM whose request is for amount 0 (R6, R77) -/

section
namespace Sys2Proof.Machine

/-! #### The target a claim gives -/

theorem RailRuntime.claimDemand_eq {x : RailRuntime} {v : Nat} (hle : ∀ l : Link, x.claims.get l ≤ v) {l : Link}
    (hl : x.claims.get l = v) : x.claimDemand = v :=
  Nat.le_antisymm (foldl_max_le (fun l _ => hle l) (Nat.zero_le v)) (hl ▸ x.claim_le_claimDemand l)

/-- The target of a rail that a session claims above every other. -/
theorem State.targetFor_of_claims {s : State} {r : Rail} {v : Nat} (hd : (s.record r).defined = true)
    (hsuspended : (s.rail r).suspended = false) (hpos : v ≠ 0) (hle : ∀ m : Link, s.claim m r ≤ v) {l : Link}
    (hl : s.claim l r = v) : s.targetFor r = v := by
  have hdemand : (s.rail r).claimDemand = v := RailRuntime.claimDemand_eq hle hl
  unfold State.targetFor RailRuntime.demandedTarget RailRuntime.effectiveDemand
  rw [if_pos hd, hsuspended, hdemand]
  exact if_neg hpos

/-! #### Rails in SLEWING whose targets follow -/

/-- `s` is `b` but for the targets of rails in SLEWING; every other rail has its target. -/
structure Placid (b s : State) : Prop where
  rest : s = { b with rails := s.rails }
  rail : ∀ q, s.rail q = { b.rail q with target := (s.rail q).target }
  still : ∀ q, (b.rail q).state ≠ .slewing → s.rail q = b.rail q ∧ Aimed s q

/-- A rail in SLEWING takes its target and does nothing on it. -/
theorem takeTurn_of_slewing {e : Event} {q : Rail} (hq : (e.st.rail q).state = .slewing)
    (hne : e.st.targetFor q ≠ (e.st.rail q).target) :
    (takeTurn e q).st = e.st.modRail q fun y => { y with target := e.st.targetFor q } := by
  have htarget : (takeTarget q e).st = e.st.modRail q fun y => { y with target := e.st.targetFor q } := by
    have hact (e1 : Event) (he : (e1.st.rail q).state = .slewing) : actOnTarget q e1 = e1 := by
      unfold actOnTarget
      dsimp only
      rw [he]
    have hslewing : ((e.st.modRail q fun y => { y with target := e.st.targetFor q }).rail q).state = .slewing := by
      rw [State.rail_modRail, if_pos rfl]
      exact hq
    unfold takeTarget
    dsimp only
    rw [if_neg hne]
    split
    · rw [hact _ hslewing]
      rfl
    · rw [hact _ hslewing]
      rfl
  unfold takeTurn
  rw [takeDeferredOff_of_not]
  · exact htarget
  · rw [htarget, State.rail_modRail, if_pos rfl]
    rintro ⟨hd, -⟩
    exact nomatch hq.symm.trans hd

theorem Placid.takeTurn {b : State} {e : Event} (h : Placid b e.st) (q : Rail) : Placid b (takeTurn e q).st := by
  by_cases haimed : Aimed e.st q
  · rw [takeTurn_of_aimed haimed]
    exact h
  · have hb : (b.rail q).state = .slewing := Classical.byContradiction fun hnot => haimed (h.still q hnot).2
    have hq : (e.st.rail q).state = .slewing := by rw [h.rail q, hb]
    by_cases hne : e.st.targetFor q = (e.st.rail q).target
    · unfold Machine.takeTurn
      rw [takeTarget_of_eq hne, takeDeferredOff_of_not]
      · exact h
      · rintro ⟨hd, -⟩
        exact nomatch hq.symm.trans hd
    · have hst := takeTurn_of_slewing hq hne
      have hrail (p : Rail) : (Machine.takeTurn e q).st.rail p =
          if p = q then { e.st.rail q with target := e.st.targetFor q } else e.st.rail p := by
        rw [hst]
        exact State.rail_modRail ..
      have hstate (p : Rail) : ((Machine.takeTurn e q).st.rail p).state = (e.st.rail p).state := by
        rw [hrail]
        split
        · next hp => rw [hp]
        · rfl
      refine ⟨?_, fun p => ?_, fun p hp => ?_⟩
      · rw [hst]
        have hrest := h.rest
        generalize e.st = a at hrest
        rw [hrest]
        rfl
      · rw [hrail]
        split
        · next hp =>
          rw [hp, h.rail q]
        · exact h.rail p
      · have hpq : p ≠ q := by
          rintro rfl
          exact hp hb
        obtain ⟨hsame, hready⟩ := h.still p hp
        refine ⟨by rw [hrail, if_neg hpq, hsame], hready.congr (by rw [hrail, if_neg hpq]) ?_ fun c _ hc => by rw [hstate, hc]⟩
        rw [hst]
        rfl

theorem Placid.foldl {b : State} {rs : List Rail} {e : Event} (h : Placid b e.st) : Placid b (rs.foldl Machine.takeTurn e).st := by
  induction rs generalizing e with
  | nil => exact h
  | cons q rs ih => exact ih (h.takeTurn q)

/-- A settling in which one rail alone has something to take, and its parents in SLEWING alone follow. -/
theorem placid_railEvent {m : State} (hm : Acyclic m) {r : Rail} (haimed : ∀ q, q ≠ r → Aimed m q) {b : State}
    (hb : (takeTurn ⟨m, []⟩ r).st = b) (hstill : ∀ q, (b.rail q).state ≠ .slewing → Aimed b q) :
    Placid b (railEvent ⟨m, []⟩).st := by
  obtain ⟨-, hall⟩ := hm.childFirst
  obtain ⟨pre, post, he, hnot⟩ := List.eq_append_cons_of_mem (hall r)
  change Placid b (settle ⟨m, []⟩).st
  rw [settle_eq_foldl]
  dsimp only
  rw [he, List.foldl_append, foldl_takeTurn_of_aimed fun q hq => haimed q fun h => hnot (h ▸ hq), List.foldl_cons]
  refine Placid.foldl ?_
  rw [hb]
  exact ⟨rfl, fun _ => rfl, fun q hq => ⟨rfl, hstill q hq⟩⟩

theorem Placid.asksBut {b s : State} (h : Placid b s) (r : Rail) : AsksBut r b s ∧ s.requestOf r = b.requestOf r := by
  have hrecords : s.records = b.records := by rw [h.rest]
  have hstate (q : Rail) : (s.rail q).state = (b.rail q).state := by rw [h.rail q]
  have hasks (q : Rail) : s.requestOf q = b.requestOf q := by
    by_cases hq : (b.rail q).state = .slewing
    · rw [State.requestOf_of_not_waiting (by rw [hstate, hq]; nofun) (by rw [hstate, hq]; nofun),
        State.requestOf_of_not_waiting (by rw [hq]; nofun) (by rw [hq]; nofun)]
    · have hrail := (h.still q hq).1
      exact State.requestOf_congr_up hrecords (by rw [h.rest]) (fun p => by rw [hstate]) (by rw [hrail]) (by rw [hrail]) (by rw [hrail])
  exact ⟨⟨by rw [h.rest], by rw [h.rest], by rw [h.rest], hrecords, fun q _ => hasks q⟩, hasks r⟩

end Sys2Proof.Machine
end

section
namespace Sys2Proof.Machine

/-! #### The rail takes its target -/

/-- A session's claim entry on a rail about to be rewritten to `v`, above every other claim, in a part between events. -/
structure ClaimDue (u : State) (l : Link) (r : Rail) (v : Nat) : Prop where
  steady : Steady u
  queue : QueueExact u
  defined : (u.record r).defined = true
  bound : v ≤ (u.record r).levelCount.toNat
  pos : v ≠ 0
  unsuspended : (u.rail r).suspended = false
  highest : ∀ m : Link, m ≠ l → u.claim m r ≤ v
  asks : u.requestOf r = none
  moved : (u.rail r).target ≠ v

/-- The part with the claim entry rewritten and rail `r` having taken its target. -/
def State.claimed (u : State) (l : Link) (r : Rail) (v : Nat) : State := (takeTarget r ⟨u.setClaim l r v, []⟩).st

section
variable {u : State} {l : Link} {r : Rail} {v : Nat} (h : ClaimDue u l r v)
include h

theorem ClaimDue.calmWritten : Calm (u.setClaim l r v) :=
  calm_setClaim h.steady.toCalm l r h.bound fun hd => absurd (h.defined.symm.trans hd) nofun

theorem ClaimDue.targetWritten : (u.setClaim l r v).targetFor r = v := by
  have hclaim := State.claim_setClaim (s := u) l (r := r) (v := v)
  refine State.targetFor_of_claims (l := l) h.defined ?_ h.pos (fun m => ?_) ?_
  · rw [State.rail_setClaim, if_pos rfl]
    exact h.unsuspended
  · rw [State.claim_setClaim]
    split
    · exact Nat.le_refl v
    · next hm => exact h.highest m fun hml => hm ⟨hml, rfl⟩
  · rw [State.claim_setClaim, if_pos ⟨rfl, rfl⟩]

omit h in
theorem rail_setClaim_eq (q : Rail) :
    (u.setClaim l r v).rail q = { u.rail q with claims := ((u.setClaim l r v).rail q).claims } := by
  rw [State.rail_setClaim]
  split
  · next h => rw [h]
  · rfl

theorem ClaimDue.aimedWritten {q : Rail} (hq : q ≠ r) : Aimed (u.setClaim l r v) q := by
  have hrail : (u.setClaim l r v).rail q = u.rail q := (State.rail_setClaim ..).trans (if_neg hq)
  exact (h.steady.aimed q).congr hrail rfl fun c _ hc => by rw [rail_setClaim_eq, hc]

theorem ClaimDue.untaken : (u.setClaim l r v).targetFor r ≠ ((u.setClaim l r v).rail r).target := by
  rw [h.targetWritten, rail_setClaim_eq]
  exact h.moved.symm

theorem ClaimDue.becomes : Becomes (u.setClaim l r v) (u.claimed l r v) r
    (RailRuntime.acts r (u.record r) { (u.setClaim l r v).rail r with target := v }) := by
  have hb := becomes_takeTarget (e := ⟨u.setClaim l r v, []⟩) h.untaken
  unfold State.retargeted at hb
  dsimp only at hb
  rw [h.targetWritten] at hb
  exact hb

omit h in
theorem onlyRails_claimed : OnlyRails (u.setClaim l r v) (u.claimed l r v) :=
  (moves_takeTarget r ⟨u.setClaim l r v, []⟩).onlyRails

theorem ClaimDue.calm : Calm (u.claimed l r v) := Calm.takeTarget (e := ⟨_, []⟩) h.calmWritten r

theorem ClaimDue.target : ((u.claimed l r v).rail r).target = v :=
  h.becomes.self.target.trans (target_acts r)

theorem ClaimDue.aimedSelf (hstate : ((u.claimed l r v).rail r).state ≠ .draining) : Aimed (u.claimed l r v) r :=
  ⟨target_takeTarget (e := ⟨_, []⟩) h.calmWritten r, fun hf => absurd ((h.calm.shape r).finished hf) hstate⟩

/-- To the arbiter, nothing has changed but what the rail asks. -/
theorem ClaimDue.asksBut (hup : ((u.claimed l r v).rail r).state.up = (u.rail r).state.up)
    (hqueue : (u.claimed l r v).budgetQueue = u.budgetQueue) (hallocated : (u.claimed l r v).allocated = u.allocated) :
    AsksBut r u (u.claimed l r v) := by
  have hwritten : AsksBut r u (u.setClaim l r v) := by
    have hstate (q : Rail) : ((u.setClaim l r v).rail q).state = (u.rail q).state := by rw [rail_setClaim_eq]
    exact ⟨rfl, rfl, rfl, rfl, fun q _ => State.requestOf_congr_up (s := u) (t := u.setClaim l r v) rfl rfl
      (fun p => congrArg RailState.up (hstate p)) (hstate q) (by rw [rail_setClaim_eq]) (by rw [rail_setClaim_eq])⟩
  refine hwritten.trans (.of_becomes h.becomes onlyRails_claimed ?_ hqueue hallocated)
  rw [← h.becomes.self.state, hup, rail_setClaim_eq]

theorem ClaimDue.placid (hstate : ((u.claimed l r v).rail r).state ≠ .draining)
    (hstill : ∀ q, q ≠ r → ((u.claimed l r v).rail q).state ≠ .slewing → Aimed (u.claimed l r v) q) :
    Placid (u.claimed l r v) (railEvent ⟨u.setClaim l r v, []⟩).st := by
  refine placid_railEvent h.calmWritten.table.acyclic (r := r) (fun q hq => h.aimedWritten hq) ?_ fun q hq => ?_
  · unfold takeTurn
    rw [takeDeferredOff_of_not]
    · rfl
    · exact fun hdue => hstate hdue.1
  · by_cases hqr : q = r
    · subst hqr
      exact h.aimedSelf hstate
    · exact hstill q hqr hq

end

/-! #### A rail in OFF -/

theorem RailRuntime.acts_of_off {r : Rail} {rec : RailRecord} {x : RailRuntime} (h : x.state = .off) (ht : x.target ≠ 0) :
    x.acts r rec = x.toWaiting r := by
  unfold RailRuntime.acts
  rw [h]
  exact if_neg ht

section
variable {u : State} {l : Link} {r : Rail} {v : Nat} (h : ClaimDue u l r v) (hoff : (u.rail r).state = .off)
  (hparents : ∀ p ∈ u.parentsOf r, (u.rail p).state = .on ∨ (u.rail p).state = .slewing)
include h hoff

theorem ClaimDue.waiting : SameButHolds (({ (u.setClaim l r v).rail r with target := v } : RailRuntime).toWaiting r)
    ((u.claimed l r v).rail r) := by
  have hself := h.becomes.self
  rw [RailRuntime.acts_of_off (by rw [rail_setClaim_eq]; exact hoff) h.pos] at hself
  exact hself

theorem ClaimDue.uncounted_off : (u.claimed l r v).budgetQueue = u.budgetQueue ∧ (u.claimed l r v).allocated = u.allocated := by
  have hrail : ((u.setClaim l r v).modRail r fun y => { y with target := (u.setClaim l r v).targetFor r }).rail r =
      { (u.setClaim l r v).rail r with target := v } := by
    rw [State.rail_modRail, if_pos rfl, h.targetWritten]
  have hact (log : List Announcement) := actOnTarget_off r
    ((u.setClaim l r v).modRail r fun y => { y with target := (u.setClaim l r v).targetFor r }) log
    (by rw [hrail, rail_setClaim_eq]; exact hoff) (by rw [hrail]; exact h.pos)
  have hst : u.claimed l r v =
      ((u.setClaim l r v).modRail r fun y => { y with target := (u.setClaim l r v).targetFor r }).enterWaiting r := by
    unfold State.claimed takeTarget
    dsimp only
    rw [if_neg h.untaken]
    split
    · exact hact _
    · exact hact _
  rw [hst]
  exact ⟨moveRail_budgetQueue .., moveRail_allocated ..⟩

include hparents

/-- The rails that neither slew nor have been claimed have their targets: a parent in ON had one, and is held still. -/
theorem ClaimDue.still_off {q : Rail} (hq : q ≠ r) (hslew : ((u.claimed l r v).rail q).state ≠ .slewing) :
    Aimed (u.claimed l r v) q := by
  have hb := h.becomes
  have hm := h.calmWritten
  have hcalm := h.calm
  have ho : OnlyRails (u.setClaim l r v) (u.claimed l r v) := onlyRails_claimed
  have haimed := h.aimedWritten hq
  have hwaiting := (h.waiting hoff).state
  have hparentsOf : q ∈ (u.setClaim l r v).parentsOf r → (u.rail q).state = .on ∨ (u.rail q).state = .slewing := hparents q
  have hinputs := (moves_takeTarget r ⟨u.setClaim l r v, []⟩).inputs q
  have hwritten : ((u.setClaim l r v).rail q).state = (u.rail q).state := by rw [rail_setClaim_eq]
  change ((u.claimed l r v).rail q).claims = _ ∧ ((u.claimed l r v).rail q).suspended = _ ∧ _ at hinputs
  generalize u.claimed l r v = b at *
  generalize u.setClaim l r v = m at *
  cases hp : m.isParent q r with
  | false => exact haimed.becomes hb hm.holds hcalm.holds ho hq hp
  | true =>
    have hsame := hb.other hq
    have hon : (b.rail q).state = .on := by
      have hup := hparentsOf ((m.mem_parentsOf_iff q r).mpr hp)
      rw [hsame.state, hwritten] at hslew ⊢
      exact hup.resolve_right hslew
    have hlevel := (hcalm.sized q).powered (.inl (by rw [hon]; rfl))
    have htarget := (hcalm.acted q).on hon
    have hheld : (b.rail q).isHeld = true := by
      refine List.any_eq_true.mpr ⟨r, mem_allRails r, ?_⟩
      rw [hcalm.holds q r, State.isParent_of_onlyRails ho, hp, hwaiting]
      rfl
    refine ⟨?_, fun hf => ?_⟩
    · have hpositive : m.targetFor q ≠ 0 := by
        rw [← haimed.target, ← hsame.target]
        omega
      rcases State.targetFor_cases (ho.record q) hinputs.1 hinputs.2.1 hpositive with hkept | hzero
      · rw [hkept, hsame.target]
        exact haimed.target
      · rw [State.isHeld_of_targetFor hzero ((hcalm.sized q).defined (by rw [hon]; nofun))] at hheld
        cases hheld
    · exact nomatch hon.symm.trans ((hcalm.shape q).finished hf)

end

end Sys2Proof.Machine
end

section
namespace Sys2Proof.Machine

/-! #### The request of amount 0, granted -/

/-- What the arbiter and a rail's record are at the end of an event whose grants are known. -/
theorem railTurn_of_granted {reserve : Option Link} {m w : State} (h : ((railEvent ⟨m, []⟩).granted m).st = w) (r : Rail) :
    (railTurn reserve [] ⟨m, []⟩).rail r = w.rail r ∧ (railTurn reserve [] ⟨m, []⟩).allocated = w.allocated
      ∧ (railTurn reserve [] ⟨m, []⟩).budgetQueue = w.budgetQueue := by
  have hend : railTurn reserve [] ⟨m, []⟩ = _ := conclude_beside reserve [] m (railEvent ⟨m, []⟩)
  rw [hend, h]
  exact ⟨rfl, rfl, rfl⟩

section
variable {u : State} {l : Link} {r : Rail} {v : Nat}

theorem record_claimed (q : Rail) : (u.claimed l r v).record q = u.record q :=
  (onlyRails_claimed (u := u) (l := l) (r := r) (v := v)).record q

variable (h : ClaimDue u l r v)
include h

/-- A START for amount 0 is granted at once, whatever the queue holds. -/
theorem ClaimDue.starts (hoff : (u.rail r).state = .off)
    (hparents : ∀ p ∈ u.parentsOf r, (u.rail p).state = .on ∨ (u.rail p).state = .slewing)
    (hsupply : u.supply.state ≠ .collapse) (hcost : (u.record r).costOf v = 0)
    (hpg : u.monitored r = false ∨ (u.rail r).pg = .low) :
    ∃ w, ((railEvent ⟨u.setClaim l r v, []⟩).granted (u.setClaim l r v)).st = w ∧ AsksBut r u w
      ∧ (w.rail r).state = .ramping ∧ (w.rail r).level = v ∧ (w.rail r).held = 0 := by
  have hwaiting := h.waiting hoff
  have hstate := hwaiting.state
  have hcounted := h.uncounted_off hoff
  have hplacid := h.placid (by rw [hstate]; nofun) fun q hq hslew => h.still_off hoff hparents hq hslew
  have hu := h.asksBut (by rw [hstate, hoff]; rfl) hcounted.1 hcounted.2
  have ho := onlyRails_claimed (u := u) (l := l) (r := r) (v := v)
  have hreq : (u.claimed l r v).requestOf r = some (.start, 0) := by
    refine (State.requestOf_eq_start_iff ..).mpr ⟨(State.ready_iff ..).mpr ⟨hstate, fun p hp => ?_, ?_⟩, ?_⟩
    · have hp' : p ∈ u.parentsOf r := by
        unfold State.parentsOf at hp ⊢
        rwa [record_claimed] at hp
      have hpr : p ≠ r := by
        rintro rfl
        exact h.steady.table.acyclic p (.of_isParent ((u.mem_parentsOf_iff p p).mp hp'))
      rw [(h.becomes.other hpr).state, rail_setClaim_eq]
      exact hparents p hp'
    · rw [ho.supply]
      exact hsupply
    · rw [h.target, record_claimed, hcost]
  obtain ⟨hs, hsame⟩ := hplacid.asksBut r
  have hrail := (hplacid.still r (by rw [hstate]; nofun)).1
  have hmonitored : (railEvent ⟨u.setClaim l r v, []⟩).st.monitored r = u.monitored r := by
    unfold State.monitored
    rw [State.record_of_records_eq hs.records, record_claimed]
  have hno : ¬((railEvent ⟨u.setClaim l r v, []⟩).st.monitored r = true
      ∧ ((railEvent ⟨u.setClaim l r v, []⟩).st.rail r).pg = .high) := by
    rintro ⟨hmon, hhigh⟩
    rw [hmonitored] at hmon
    rw [hrail, hwaiting.onlyAims, rail_setClaim_eq] at hhigh
    rcases hpg with h | h
    · exact Bool.false_ne_true (h.symm.trans hmon)
    · exact nomatch h.symm.trans hhigh
  have hheld : (u.rail r).held = 0 := ((h.steady.shape r).unpowered (.inl hoff)).2
  generalize railEvent ⟨u.setClaim l r v, []⟩ = e at hplacid hs hsame hrail hno
  obtain ⟨s, log⟩ := e
  dsimp only at hs hsame hrail hno
  have hgiven := hsame.trans hreq
  have hb := (becomes_start s r 0).self
  have hlevel : (s.rail r).target = v := by rw [hrail, h.target]
  have hheld' : (s.rail r).held = 0 := by
    rw [hrail, hwaiting.onlyAims, rail_setClaim_eq]
    exact hheld
  have hstart := asksBut_start hgiven
  have hhand (log : List Announcement) :=
    handGrant_start (before := u.setClaim l r v) (n := 0) (e := ⟨s, log⟩) hno
  dsimp only at hhand
  generalize (s.takeBudget r 0).enterRamping r = w at hb hstart hhand
  exact ⟨w, (hu.trans hs).granted h.queue h.asks hgiven (fun log => ⟨log, hhand log⟩) hstart
    (State.requestOf_of_not_waiting (by rw [hb.state]; nofun) (by rw [hb.state]; nofun)) log, (hu.trans hs).trans hstart, hb.state,
    hb.level.trans hlevel, hb.held.trans hheld'⟩

/-- A RAISE for amount 0 is granted at once, whatever the queue holds. -/
theorem ClaimDue.raises (hon : (u.rail r).state = .on) (hlevel : (u.rail r).level < v)
    (hcost : (u.record r).costOf v = (u.record r).costOf (u.rail r).level) :
    ∃ w, ((railEvent ⟨u.setClaim l r v, []⟩).granted (u.setClaim l r v)).st = w ∧ AsksBut r u w
      ∧ (w.rail r).state = .slewing ∧ (w.rail r).level = v ∧ (w.rail r).slewOrigin = some (u.rail r).level
      ∧ (w.rail r).held = (u.rail r).held := by
  have hself : SameButHolds { (u.setClaim l r v).rail r with target := v } ((u.claimed l r v).rail r) := by
    have hself := h.becomes.self
    rw [RailRuntime.acts_of_on (by rw [rail_setClaim_eq]; exact hon)] at hself
    dsimp only at hself
    rw [if_neg h.pos, if_neg (by rw [rail_setClaim_eq]; exact Nat.not_lt.mpr (Nat.le_of_lt hlevel))] at hself
    exact hself
  have hstate : ((u.claimed l r v).rail r).state = .on := by
    rw [hself.state, rail_setClaim_eq]
    exact hon
  have hcounted : (u.claimed l r v).budgetQueue = u.budgetQueue ∧ (u.claimed l r v).allocated = u.allocated := by
    have hrail : ((u.setClaim l r v).modRail r fun y => { y with target := (u.setClaim l r v).targetFor r }).rail r =
        { (u.setClaim l r v).rail r with target := v } := by
      rw [State.rail_modRail, if_pos rfl, h.targetWritten]
    have hact (log : List Announcement) := actOnTarget_same r
      ((u.setClaim l r v).modRail r fun y => { y with target := (u.setClaim l r v).targetFor r }) log
      (.inr (.inr (.inr (.inr (.inr (.inl (by
        rw [hrail, rail_setClaim_eq]
        exact ⟨hon, Nat.le_of_lt hlevel, h.pos⟩)))))))
    have hst : u.claimed l r v =
        (u.setClaim l r v).modRail r fun y => { y with target := (u.setClaim l r v).targetFor r } := by
      unfold State.claimed takeTarget
      dsimp only
      rw [if_neg h.untaken]
      split
      · exact congrArg Event.st (hact _)
      · exact congrArg Event.st (hact _)
    rw [hst]
    exact ⟨rfl, rfl⟩
  have ho := onlyRails_claimed (u := u) (l := l) (r := r) (v := v)
  have hstill (q : Rail) (hq : q ≠ r) : Aimed (u.claimed l r v) q := by
    have hrail := h.becomes.rail_eq_of_holding h.calmWritten.holds h.calm.holds ho
      (by rw [← h.becomes.self.state, hstate, rail_setClaim_eq, hon]) hq
    refine (h.aimedWritten hq).congr hrail (ho.record q) fun c _ hc => ?_
    have hcr : c ≠ r := by
      rintro rfl
      rw [rail_setClaim_eq, hon] at hc
      cases hc
    rw [(h.becomes.other hcr).state, hc]
  have hplacid := h.placid (by rw [hstate]; nofun) fun q hq _ => hstill q hq
  have hu := h.asksBut (by rw [hstate, hon]) hcounted.1 hcounted.2
  have hlevels : ((u.claimed l r v).rail r).level = (u.rail r).level ∧ ((u.claimed l r v).rail r).held = (u.rail r).held := by
    rw [hself.onlyAims, rail_setClaim_eq]
    exact ⟨rfl, rfl⟩
  have hreq : (u.claimed l r v).requestOf r = some (.raise, 0) := by
    refine (State.requestOf_eq_raise_iff ..).mpr ⟨hstate, ?_, ?_⟩
    · rw [hlevels.1, h.target]
      exact hlevel
    · rw [h.target, hlevels.1, record_claimed, hcost, Nat.sub_self]
  obtain ⟨hs, hsame⟩ := hplacid.asksBut r
  have hrail := (hplacid.still r (by rw [hstate]; nofun)).1
  generalize railEvent ⟨u.setClaim l r v, []⟩ = e at hplacid hs hsame hrail
  obtain ⟨s, log⟩ := e
  dsimp only at hs hsame hrail
  have hgiven := hsame.trans hreq
  have hnot : s.queued r = false := by
    unfold State.queued
    rw [(hu.trans hs).queue]
    exact h.queue.toQueueKept.queued_of_requestOf h.asks
  have hb := (becomes_raise s r 0).self
  have hrecords : (s.rail r).target = v ∧ (s.rail r).level = (u.rail r).level ∧ (s.rail r).held = (u.rail r).held := by
    rw [hrail]
    exact ⟨h.target, hlevels⟩
  obtain ⟨htarget, horigin, hheld⟩ := hrecords
  have hraise := asksBut_raise hgiven hnot
  have hhand (log : List Announcement) := handGrant_raise (before := u.setClaim l r v) (r := r) (n := 0) (e := ⟨s, log⟩)
  dsimp only at hhand
  generalize (s.takeBudget r 0).enterSlewing r = w at hb hraise hhand
  exact ⟨w, (hu.trans hs).granted h.queue h.asks hgiven (fun log => ⟨log, hhand log⟩) hraise
    (State.requestOf_of_not_waiting (by rw [hb.state]; nofun) (by rw [hb.state]; nofun)) log, (hu.trans hs).trans hraise, hb.state,
    hb.level.trans htarget, hb.onlyAims.slewOrigin.trans (congrArg some horigin), hb.held.trans hheld⟩

end

end Sys2Proof.Machine
end

section
namespace Sys2Proof.Machine

/-! #### The commands -/

/-- The part on which an accepted CLAIM of session `l` on rail `r` rewrites its entry: the lease renewed, the outstanding
completion superseded. -/
def State.claiming (s : State) (l : Link) (r : Rail) : State := closeOutstanding l r .superseded (s.leased l)

theorem beside_claiming (s : State) (l : Link) (r : Rail) : Beside s (s.claiming l r) := by
  have h := closeOutstanding_eq l r .superseded (s.leased l)
  unfold State.claiming
  generalize closeOutstanding l r .superseded (s.leased l) = u at h
  rw [h]
  exact rfl

/-- Whatever the sessions make of it, an accepted CLAIM leaves the rails and the arbiter as the event at the rails does. -/
theorem claim_exec {s : State} {l : Link} {f : Frame} {r : Rail} (hp : Passes s .claim l f) (hr : Names s f r)
    (hzero : argByte f 1 ≠ 0) (hlevel : (argByte f 1).toNat ≤ (s.record r).levelCount.toNat)
    (hroom : (s.session l).roomUsed < 24) :
    ∃ t, exec (.claim l f) s = .next t ∧ ∀ w : State,
      ((railEvent ⟨(s.claiming l r).setClaim l r (argByte f 1).toNat, []⟩).granted
        ((s.claiming l r).setClaim l r (argByte f 1).toNat)).st = w →
      t.rail r = w.rail r ∧ t.allocated = w.allocated ∧ t.budgetQueue = w.budgetQueue := by
  have hroom' : ¬ 24 ≤ ((s.leased l).session l).roomUsed := by
    rw [State.leased, roomUsed_leaseRestarted]
    exact Nat.not_le.mpr hroom
  have hanswer : claimAnswer l f (s.leased l) = ⟨claimTaken l r (argByte f 1).toNat f.tag (s.leased l), .accepted, []⟩ :=
    (claimAnswer_of_level (t := s.leased l) (Names.namedRail hr) hzero hlevel).trans (if_neg hroom')
  have hserve : s.serve .claim l f (claimAnswer l f) = (claimAnswer l f (s.leased l)).st.respond l f.tag
      (claimAnswer l f (s.leased l)).status (claimAnswer l f (s.leased l)).data := hp.serve_eq nofun nofun _
  rw [hanswer] at hserve
  have hserved (outcome) := claimServed_setUp l r (argByte f 1).toNat (some l) ⟨.claimWait (argByte f 1).toNat, f.tag⟩ outcome s
    f.tag .accepted []
  unfold claimTaken at hserve
  have hend := fun w => railTurn_of_granted (reserve := some l) (m := (s.claiming l r).setClaim l r (argByte f 1).toNat) (w := w)
  generalize hturn : rewriteClaim (some l) l r (argByte f 1).toNat (closeOutstanding l r .superseded (s.leased l)) = x
    at hserve hserved
  replace hserved := (hserved (claimOutcome (x.rail r) (argByte f 1).toNat)).written
  refine ⟨_, congrArg Host.Outcome.next hserve, fun w hw => ?_⟩
  have hx : railTurn (some l) [] ⟨(s.claiming l r).setClaim l r (argByte f 1).toNat, []⟩ = x := hturn
  have hsame := hend w hw r
  rw [hx] at hsame
  rw [hserved]
  exact hsame

/-- A claim that takes a rail to a level above every other claim on it, where the rail asks for nothing yet. -/
theorem Coherent.claimDue {s : State} (hs : Coherent s) (hc : s.lifecycle = .committed) (l : Link) {r : Rail} {v : Nat}
    (hd : (s.record r).defined = true) (hbound : v ≤ (s.record r).levelCount.toNat) (hpos : v ≠ 0)
    (hsuspended : (s.rail r).suspended = false) (hhighest : ∀ m : Link, m ≠ l → s.claim m r ≤ v)
    (hasks : s.requestOf r = none) (hmoved : (s.rail r).target ≠ v) : ClaimDue (s.claiming l r) l r v := by
  have hbeside := beside_claiming s l r
  have hsteady : Steady (s.claiming l r) := Steady.beside ⟨hs.calm hc, hs.aimed⟩ hbeside
  have hsame := hbeside.sameArbiter
  have hrail := hbeside.rail r
  have hrecord : (s.claiming l r).record r = s.record r := State.record_of_records_eq hsame.records r
  refine ⟨hsteady, hs.queueExact.same hsame, by rwa [hrecord], by rwa [hrecord], hpos, by rwa [hrail], fun m hm => ?_,
    (hsame.asks r).trans hasks, by rwa [hrail]⟩
  have hclaim : (s.claiming l r).claim m r = s.claim m r := State.claim_of_claims_eq (by rw [hrail]) m
  rw [hclaim]
  exact hhighest m hm

section
variable {s : State} {l : Link} {f : Frame} {r : Rail} (hs : Coherent s) (hp : Passes s .claim l f) (hr : Names s f r)
  (hzero : argByte f 1 ≠ 0) (hlevel : (argByte f 1).toNat ≤ (s.record r).levelCount.toNat) (hroom : (s.session l).roomUsed < 24)
  (hsuspended : (s.rail r).suspended = false)
include hs hp hr hzero hlevel hroom hsuspended

theorem claim_starts (hoff : (s.rail r).state = .off)
    (hparents : ∀ p ∈ s.parentsOf r, (s.rail p).state = .on ∨ (s.rail p).state = .slewing) (hsupply : s.supply.state ≠ .collapse)
    (hcost : (s.record r).costOf (argByte f 1).toNat = 0) (hpg : s.monitored r = false ∨ (s.rail r).pg = .low) :
    ∃ t, exec (.claim l f) s = .next t ∧ (t.rail r).state = .ramping ∧ (t.rail r).level = (argByte f 1).toNat
      ∧ (t.rail r).held = 0 ∧ t.allocated = s.allocated ∧ t.budgetQueue = s.budgetQueue := by
  have hc := committed_of_lifecycleRefusal (.inl rfl) hp.lifecycle
  have hpos : (argByte f 1).toNat ≠ 0 := fun h0 => hzero (BitVec.eq_of_toNat_eq h0)
  have hbeside := beside_claiming s l r
  have hrail := hbeside.rail
  have hsame := hbeside.sameArbiter
  have hrecord : (s.claiming l r).record r = s.record r := State.record_of_records_eq hsame.records r
  have htarget := hs.settled.off r hoff
  have hdemand : (s.rail r).claimDemand = 0 := by
    have h := ((State.unwanted_iff hr.2).mp ((hs.aimed r).target.symm.trans htarget)).demand
    unfold RailRuntime.effectiveDemand at h
    rwa [hsuspended] at h
  have hdue := hs.claimDue hc l hr.2 hlevel hpos hsuspended
    (fun m _ => Nat.le_trans ((s.rail r).claim_le_claimDemand m) (by rw [hdemand]; exact Nat.zero_le _))
    (State.requestOf_of_not_waiting (by rw [hoff]; nofun) (by rw [hoff]; nofun)) (by rw [htarget]; exact hpos.symm)
  have hparents' : ∀ p ∈ (s.claiming l r).parentsOf r,
      ((s.claiming l r).rail p).state = .on ∨ ((s.claiming l r).rail p).state = .slewing := fun q hq => by
    rw [hrail]
    refine hparents q ?_
    unfold State.parentsOf at hq ⊢
    rwa [hrecord] at hq
  have hsupply' : (s.claiming l r).supply.state ≠ .collapse := by
    rw [hbeside]
    exact hsupply
  have hpg' : (s.claiming l r).monitored r = false ∨ ((s.claiming l r).rail r).pg = .low := by
    unfold State.monitored
    rw [hrecord, hrail]
    exact hpg
  obtain ⟨w, hgranted, hasks, hstate, hat, hheld⟩ := hdue.starts (by rw [hrail]; exact hoff) hparents' hsupply'
    (by rw [hrecord]; exact hcost) hpg'
  obtain ⟨t, hexec, hend⟩ := claim_exec hp hr hzero hlevel hroom
  obtain ⟨hrailt, hallocated, hqueue⟩ := hend w hgranted
  rw [← hrailt] at hstate hat hheld
  exact ⟨t, hexec, hstate, hat, hheld, hallocated.trans (hasks.allocated.trans hsame.allocated),
    hqueue.trans (hasks.queue.trans hsame.queue)⟩

theorem claim_raises (hon : (s.rail r).state = .on) (hqueued : s.queued r = false)
    (hbelow : (s.rail r).level < (argByte f 1).toNat) (hothers : ∀ m : Link, m ≠ l → s.claim m r ≤ (argByte f 1).toNat)
    (hcost : (s.record r).costOf (argByte f 1).toNat = (s.record r).costOf (s.rail r).level) :
    ∃ t, exec (.claim l f) s = .next t ∧ (t.rail r).state = .slewing ∧ (t.rail r).level = (argByte f 1).toNat
      ∧ (t.rail r).slewOrigin = some (s.rail r).level ∧ (t.rail r).held = (s.rail r).held
      ∧ t.allocated = s.allocated ∧ t.budgetQueue = s.budgetQueue := by
  have hc := committed_of_lifecycleRefusal (.inl rfl) hp.lifecycle
  have hpos : (argByte f 1).toNat ≠ 0 := fun h0 => hzero (BitVec.eq_of_toNat_eq h0)
  have hbeside := beside_claiming s l r
  have hrail := hbeside.rail r
  have hsame := hbeside.sameArbiter
  have hrecord : (s.claiming l r).record r = s.record r := State.record_of_records_eq hsame.records r
  have hasks : s.requestOf r = none := Classical.byContradiction fun hne =>
    Bool.false_ne_true (hqueued.symm.trans (hs.kept.every r hne))
  have hdue := hs.claimDue hc l hr.2 hlevel hpos hsuspended hothers hasks fun htarget => by
    have h := (s.requestOf_eq_raise_iff r _).mpr ⟨hon, by rw [htarget]; exact hbelow, rfl⟩
    rw [hasks] at h
    cases h
  obtain ⟨w, hgranted, hcount, hstate, hat, horigin, hheld⟩ := hdue.raises (by rw [hrail]; exact hon)
    (by rw [hrail]; exact hbelow) (by rw [hrecord, hrail]; exact hcost)
  obtain ⟨t, hexec, hend⟩ := claim_exec hp hr hzero hlevel hroom
  obtain ⟨hrailt, hallocated, hqueue⟩ := hend w hgranted
  rw [hrail] at horigin hheld
  rw [← hrailt] at hstate hat horigin hheld
  exact ⟨t, hexec, hstate, hat, horigin, hheld, hallocated.trans (hcount.allocated.trans hsame.allocated),
    hqueue.trans (hcount.queue.trans hsame.queue)⟩

end

/-- Settles O40. -/
theorem grantsMoveTheRail : Obligations.GrantsMoveTheRail := by
  refine ⟨fun r s amount p hhead => ⟨fun hs hfits => ?_, fun hreq hpos hwaits => ?_⟩,
    fun r s amount p hhead => ⟨fun hs hfits => ?_, fun hreq hpos hwaits => ?_⟩, ?_⟩
  · have hdue : HeadDue s r .start amount p := ⟨hs, hhead, (s.fits_iff amount).mpr hfits⟩
    refine ⟨_, congrArg Host.Outcome.next hdue.grantHead, ?_, fun hmon hpg => ?_, fun hpg => ?_⟩
    · have hstate : ((concludeGroup (s.handed r .start amount)).rail r).state = .fault
          ∨ ((concludeGroup (s.handed r .start amount)).rail r).state = .ramping := by
        by_cases h : s.monitored r = true ∧ (s.rail r).pg = .high
        · exact .inl (hdue.backfed h.1 h.2).state
        · rw [hdue.ramps]
          · exact .inr rfl
          · cases hmon : s.monitored r with
            | false => exact .inl rfl
            | true =>
              cases hpg : (s.rail r).pg with
              | low => exact .inr rfl
              | high => exact absurd ⟨hmon, hpg⟩ h
      refine hdue.queued ?_ ?_
      all_goals rcases hstate with h | h <;> rw [h] <;> nofun
    · rw [hdue.backfed hmon hpg]
      exact ⟨rfl, rfl, rfl, rfl, rfl, lvlCode_zero r, rfl⟩
    · rw [hdue.ramps hpg]
      exact ⟨rfl, rfl, rfl, rfl, rfl, rfl⟩
  · exact congrArg Host.Outcome.next (grantHead_of_waits hhead hreq hpos hwaits)
  · have hdue : HeadDue s r .raise amount p := ⟨hs, hhead, (s.fits_iff amount).mpr hfits⟩
    have hslews := hdue.slews
    refine ⟨_, congrArg Host.Outcome.next hdue.grantHead, hdue.queued (by rw [hslews.state]; nofun) (by rw [hslews.state]; nofun), ?_⟩
    rw [hslews]
    exact ⟨rfl, rfl, rfl, rfl, rfl, rfl, rfl⟩
  · exact congrArg Host.Outcome.next (grantHead_of_waits hhead hreq hpos hwaits)
  · intro l f s r hs hp hr hzero hlevel hroom hsuspended
    exact ⟨claim_starts hs hp hr hzero hlevel hroom hsuspended, claim_raises hs hp hr hzero hlevel hroom hsuspended⟩

end Sys2Proof.Machine
end
